-- ==== Sys2Proof/Word.lean ====
section
/-! DEFINITION. The bit-vector types of the block (spec 00_scope R6, R10). -/

namespace Sys2Proof

/-- One byte: every port, register element and stream element (R6 `BYTE`). -/
abbrev Byte := BitVec 8

/-- The 11-bit host operation word `W` (R60). -/
abbrev OpWord := BitVec 11

/-- An IEEE-754 binary32 bit pattern (R164). -/
abbrev F32 := BitVec 32

/-- An IEEE-754 binary64 bit pattern (R167, R168). -/
abbrev F64 := BitVec 64

end Sys2Proof
end

