-- ==== Sys2Proof/Machine/Operands.lean ====
section
/-! DEFINITION. Operand assembly: the fields of the operation word (spec 30_encoding R60,
R63), the 7-bit split of a header byte (R67) and the little-endian field (20_memory R44). -/

namespace Sys2Proof.Machine

/-- `op` = `W[10:8]` (R60). -/
def wordOp (w : OpWord) : BitVec 3 := w.extractLsb' 8 3

/-- `data` = `W[7:0]` (R60, R63). -/
def wordData (w : OpWord) : Byte := w.extractLsb' 0 8

/-- The operation word of select `op` and operand `data` (R60). -/
def opWordOf (op : BitVec 3) (data : Byte) : OpWord := op ++ data

/-- Bit 7 of a header byte, which splits addresses from commands (R67). -/
def bit7 (v : Byte) : Bool := v.getLsbD 7

/-- `v[6:0]` (R67). -/
def low7 (v : Byte) : BitVec 7 := v.extractLsb' 0 7

/-- `0x80 | a`, the address byte of address `a` (R65). -/
def withBit7 (a : BitVec 7) : Byte := 0x80#8 ||| a.zeroExtend 8

/-- `zext_8(a)`, a 7-bit value as a byte with bit 7 clear (R10, R134). -/
def clearBit7 (a : BitVec 7) : Byte := a.zeroExtend 8

/-- The value of bytes whose first is the least significant (R44). -/
def leValue : List Byte → Nat
  | [] => 0
  | b :: bs => b.toNat + 256 * leValue bs

/-- `Field_LE(p, off, n)`: the `n`-byte little-endian field at byte offset `off` (R44). -/
def fieldLE (p : List Byte) (off n : Nat) : BitVec (8 * n) :=
  BitVec.ofNat (8 * n) (leValue ((p.drop off).take n))

/-- `sext_16(v)`: the two's-complement reading of a 16-bit pattern (R10, R163). -/
def sext16 (v : BitVec 16) : Int := v.toInt

end Sys2Proof.Machine
end

