-- ==== Sys2Proof/Config.lean ====
section
/-! DEFINITION. What is fixed for the block: the literals of spec 00_scope R6, the two open
parameters of R8 and R9, and the free values, each an opaque constant without a body. -/

namespace Sys2Proof

/-- `FEND`, the frame boundary (R6, R64). -/
@[simp] abbrev Config.fend : Byte := 0xC0#8
/-- `FESC`, the escape (R6, R64). -/
@[simp] abbrev Config.fesc : Byte := 0xDB#8
/-- `TFEND`, after `FESC` a data byte `0xC0` (R6, R64). -/
@[simp] abbrev Config.tfend : Byte := 0xDC#8
/-- `TFESC`, after `FESC` a data byte `0xDB` (R6, R64). -/
@[simp] abbrev Config.tfesc : Byte := 0xDD#8
/-- `CRC_INIT` (R6). -/
@[simp] abbrev Config.crcInit : Byte := 0x00#8
/-- `MAX_PAYLOAD`, also the depth of `buf` (R6, R28). -/
@[simp] abbrev Config.maxPayload : Nat := 128
/-- `TELEM_CMD` (R6, R70). -/
@[simp] abbrev Config.telemCmd : Byte := 0x55#8
/-- `INVALID_CMD`; no rule treats it specially (R6, R70). -/
@[simp] abbrev Config.invalidCmd : Byte := 0xFF#8
/-- `N_CURRENTS` (R6). -/
@[simp] abbrev Config.nCurrents : Nat := 40

/-- The two legal values of the open parameter `TELEM_PAYLOAD_LEN` (R8). -/
inductive TelemLayout
  /-- `TELEM_PAYLOAD_LEN` = 90: no trailer (R72). -/
  | len90
  /-- `TELEM_PAYLOAD_LEN` = 94: with the reserved trailer (R72). -/
  | len94
deriving DecidableEq, Repr, Inhabited

/-- `TELEM_PAYLOAD_LEN` in bytes (R8). -/
def TelemLayout.payloadLen : TelemLayout → Nat
  | .len90 => 90
  | .len94 => 94

/-- The configuration field `toAmps` (R9, R167): the spec's default, or the device's own
conversion, of which only the named properties of R167 are known (log 8). -/
inductive AmpsRounding
  /-- `round_binary64(m / 1000)`, to nearest, ties to even: the spec's default (R167). -/
  | nearestEven
  /-- Another conversion with properties (a) to (c) of R167. -/
  | device
deriving DecidableEq, Repr, Inhabited

/-- The configuration of one block, fixed for its life (R8, R9, R31). -/
structure BlockConfig where
  /-- `TELEM_PAYLOAD_LEN` (R8). -/
  layout : TelemLayout
  /-- `toAmps` (R9). -/
  rounding : AmpsRounding
deriving DecidableEq, Repr, Inhabited

/-- What one step of the unstuffer yields (R112). -/
inductive Unstuffed
  /-- `SKIP`: the raw byte begins an escape. -/
  | skip
  /-- `DATA(v)`: an unstuffed byte. -/
  | data (v : Byte)
  /-- `ESC_ERR`: a stuffing error. -/
  | escErr
deriving DecidableEq, Repr, Inhabited

/-- FREE VALUE (log 7): the payload length of the device's firmware, which no source gives
(R8). -/
opaque Config.firmwareLayout : TelemLayout

/-- FREE VALUE (log 8): a conversion other than the default. It is used only where it has
the named properties of R167. -/
opaque Config.deviceAmps : BitVec 16 → F64

/-- FREE VALUE (log 3): `any value` of a `buf` entry that nothing has written since the
CLEAR or reset numbered by the first argument (R33, R41). -/
opaque Config.bufAny : Nat → Nat → Byte

/-- FREE VALUE (log 4): `any value` of a READ outside its window, by input number and index
(R147). -/
opaque Config.readAny : Nat → Byte → Byte

/-- FREE VALUE (log 5): the sign (bit 52) and payload (bits 51 to 0) of a widened NaN, by
input number and operand (R168). -/
opaque Config.nanAny : Nat → F32 → BitVec 53

/-- FREE VALUE (log 13): `UNSTUFF_STEP` on a raw `FEND`, outside its precondition (R112). -/
opaque Config.unstuffAny : Nat → Bool → Byte → Bool × Unstuffed

/-- FREE VALUE (log 13): `UNSTUFF_SEQ` on a sequence that holds a `FEND`, outside its
precondition (R113). -/
opaque Config.unstuffSeqAny : Nat → List Byte → Option (List Byte × Bool)

end Sys2Proof
end

