-- ==== Sys2Proof/Syntax.lean ====
section
/-! DEFINITION. The instructions: one constructor per row of spec/opcode_table.json, and what
the host can put to the block (spec 30_encoding R60 to R63). -/

namespace Sys2Proof

/-- The rows of the opcode table, in the table's order. -/
inductive Instr
  /-- NOP; `data` is ignored (R146, R63). -/
  | nop (data : Byte)
  /-- FEED: one raw byte into the frame decoder (R130). -/
  | feed (b : Byte)
  /-- CLEAR; `data` is ignored (R145, R63). -/
  | clear (data : Byte)
  /-- ENCODE: command `c` and the payload port's byte sequence `p` (R120). -/
  | encode (c : Byte) (p : List Byte)
  /-- READ: payload index `i`, 0 to 255 (R147). -/
  | read (i : Byte)
  /-- TELEM; `data` is ignored (R160, R63). -/
  | telem (data : Byte)
  /-- RESERVED_110 (R62). -/
  | reserved110 (data : Byte)
  /-- RESERVED_111 (R62). -/
  | reserved111 (data : Byte)
  /-- FEED_FEND: the raw byte is `FEND` (R131). -/
  | feedFend
  /-- FEED_DISCARD: raw byte `b` outside a frame (R132). -/
  | feedDiscard (b : Byte)
  /-- FEED_ESC_BEGIN: raw `FESC` with no escape pending (R133). -/
  | feedEscBegin
  /-- FEED_ESC_TFEND: raw `TFEND` completes an escape; data `0xC0` (R112). -/
  | feedEscTfend
  /-- FEED_ESC_TFESC: raw `TFESC` completes an escape; data `0xDB` (R112). -/
  | feedEscTfesc
  /-- FEED_ESC_ERR: raw byte `b` after `FESC` completes no escape (R133). -/
  | feedEscErr (b : Byte)
  /-- FEED_ADDR: unstuffed `0x80 | a`, the address byte (R134). -/
  | feedAddr (a : BitVec 7)
  /-- FEED_CMD0: unstuffed command `c`, bit 7 clear, no address before it (R135). -/
  | feedCmd0 (c : BitVec 7)
  /-- FEED_CMD1: unstuffed command `c`, bit 7 clear, after an address (R136). -/
  | feedCmd1 (c : BitVec 7)
  /-- FEED_CMD_BAD: unstuffed `0x80 | x` where a command must stand (R137). -/
  | feedCmdBad (x : BitVec 7)
  /-- FEED_LEN: unstuffed length `v` of at most 128 (R138). -/
  | feedLen (v : Byte)
  /-- FEED_LEN_BAD: unstuffed length `v` above 128 (R139). -/
  | feedLenBad (v : Byte)
  /-- FEED_DATA: unstuffed payload byte `v` (R140). -/
  | feedData (v : Byte)
  /-- FEED_CRC_OK: unstuffed CRC byte `v` that matches (R141). -/
  | feedCrcOk (v : Byte)
  /-- FEED_CRC_BAD: unstuffed CRC byte `v` that does not match (R142). -/
  | feedCrcBad (v : Byte)
  /-- CRC8_STEP (R100). -/
  | crc8Step (crc : Byte) (b : Byte)
  /-- CRC8_SEQ (R102). -/
  | crc8Seq (init : Byte) (bs : List Byte)
  /-- STUFF (R110). -/
  | stuff (b : Byte)
  /-- STUFF_SEQ (R111). -/
  | stuffSeq (bs : List Byte)
  /-- UNSTUFF_STEP (R112). -/
  | unstuffStep (pf : Bool) (raw : Byte)
  /-- UNSTUFF_SEQ (R113). -/
  | unstuffSeq (bs : List Byte)
  /-- TelemDecode (R161). -/
  | telemDecode (p : List Byte)
  /-- toAmps of a signed 16-bit value (R167). -/
  | toAmps (m : BitVec 16)
  /-- tempF64 of a binary32 pattern (R168). -/
  | tempF64 (t : F32)
  /-- is_telemetry, the classification output over `status` and `cmd` (R169). -/
  | isTelemetry
  /-- CMD_TELEMETRY: the command code `0x55` (R169, R70). -/
  | cmdTelemetry
  /-- CMD_INVALID_SENTINEL: the command code `0xFF` (R70). -/
  | cmdInvalidSentinel
deriving DecidableEq, Repr

/-- The "format" column of the opcode table. -/
inductive RowFormat
  | opWord11 | feedRawByte | feedUnstuffedByte | combinational | commandCode
deriving DecidableEq, Repr

/-- The format of each row. -/
def Instr.format : Instr → RowFormat
  | .nop _ => .opWord11
  | .feed _ => .opWord11
  | .clear _ => .opWord11
  | .encode _ _ => .opWord11
  | .read _ => .opWord11
  | .telem _ => .opWord11
  | .reserved110 _ => .opWord11
  | .reserved111 _ => .opWord11
  | .feedFend => .feedRawByte
  | .feedDiscard _ => .feedRawByte
  | .feedEscBegin => .feedRawByte
  | .feedEscTfend => .feedRawByte
  | .feedEscTfesc => .feedRawByte
  | .feedEscErr _ => .feedRawByte
  | .feedAddr _ => .feedUnstuffedByte
  | .feedCmd0 _ => .feedUnstuffedByte
  | .feedCmd1 _ => .feedUnstuffedByte
  | .feedCmdBad _ => .feedUnstuffedByte
  | .feedLen _ => .feedUnstuffedByte
  | .feedLenBad _ => .feedUnstuffedByte
  | .feedData _ => .feedUnstuffedByte
  | .feedCrcOk _ => .feedUnstuffedByte
  | .feedCrcBad _ => .feedUnstuffedByte
  | .crc8Step _ _ => .combinational
  | .crc8Seq _ _ => .combinational
  | .stuff _ => .combinational
  | .stuffSeq _ => .combinational
  | .unstuffStep _ _ => .combinational
  | .unstuffSeq _ => .combinational
  | .telemDecode _ => .combinational
  | .toAmps _ => .combinational
  | .tempF64 _ => .combinational
  | .isTelemetry => .combinational
  | .cmdTelemetry => .commandCode
  | .cmdInvalidSentinel => .commandCode

/-- One host operation: an operation word with the ENCODE payload port beside it (R60), or a
combinational function requested at its own ports, for which there is no word (R61; log 12). -/
inductive HostOp
  /-- Operation word `w`, payload port `p`. -/
  | word (w : OpWord) (p : List Byte)
  /-- The function and operands of `i`, which must be a combinational row. -/
  | call (i : Instr)
deriving DecidableEq, Repr

/-- What the host puts to the block in one step: the reset input beside an operation, if any
(R60, R200). -/
structure HostInput where
  /-- The reset input. -/
  reset : Bool
  /-- The operation; none when the host issues nothing in this step. -/
  op : Option HostOp
deriving DecidableEq, Repr

/-- The bits of an instruction, by the format of its row. -/
inductive Code
  /-- A host operation (R60, R61). -/
  | host (op : HostOp)
  /-- A raw byte of the stream. -/
  | rawByte (b : Byte)
  /-- A byte after unstuffing. -/
  | dataByte (v : Byte)
  /-- A named command code (R70). -/
  | commandCode (c : Byte)
deriving DecidableEq, Repr

end Sys2Proof
end

