-- ==== Sys2Proof/Machine/State.lean ====
section
/-! DEFINITION. The machine's state as plain data (spec 10_state R20 to R33), the block's
outputs, and the reasons a step can stop. -/

namespace Sys2Proof.Machine

/-- `st`, the decoder's state (R21). The five named values of the 3-bit register; its code is
`FsmState.code`. Values 5 to 7 are never reached (R34; log 15). -/
inductive FsmState
  | waitFend | waitAddrOrCmd | waitCmd | waitNbt | waitData
deriving DecidableEq, Repr

/-- `status`, the per-FEED result (R29); its code is `Status.code`. -/
inductive Status
  | pending | complete | invalid
deriving DecidableEq, Repr

/-- The cause codes (R180); the code of each is `Cause.code`. The register `cause` holds only
the first six (R34 item 7); the last three are results of ENCODE, TELEM and TelemDecode. -/
inductive Cause
  | none | escErr | cmdBit7 | lenTooBig | crcMismatch | frameRestart
  | encTooLong | telemBadLen | telemNoFrame
deriving DecidableEq, Repr

/-- The cells of `buf`: index and byte, indexes strictly rising and below 128, an entry
listed when something has written it since the last CLEAR or reset (R28, R41; log 3). -/
abbrev Memory := List Host.Cell

/-- The registers of the frame decoder, unit U4 (R20): everything that persists from one
operation to the next. -/
structure Decoder where
  /-- FSM state (R21). -/
  st : FsmState
  /-- CRC accumulator (R22). -/
  crc : Byte
  /-- The previous raw byte was `FESC` (R23). -/
  prevFesc : Bool
  /-- Decoded command (R24). -/
  cmd : Byte
  /-- The frame carried an address (R25). -/
  hasAddr : Bool
  /-- The address, 7 bits (R25). -/
  addr : BitVec 7
  /-- Declared payload length (R26). -/
  len : Byte
  /-- Payload bytes stored so far (R27). -/
  cnt : Byte
  /-- Payload buffer (R28). -/
  buf : Memory
  /-- MODEL'S OWN: the input number of the last CLEAR or reset, which indexes the free
  contents of unwritten entries (log 3, log 6). -/
  bufEpoch : Nat
  /-- Per-FEED result (R29). -/
  status : Status
  /-- Per-FEED diagnostic (R30). -/
  cause : Cause
deriving DecidableEq, Repr

/-- The event record of a frame's CRC byte (R144). -/
structure Event where
  kind : Status
  hasAddr : Bool
  addr : BitVec 7
  cmd : Byte
  len : Byte
  payload : List Byte
deriving DecidableEq, Repr

/-- A telemetry sample (R161). `currentMA` holds the 16-bit patterns, signed by `toInt`
(R163; log 19). -/
structure Sample where
  counter : BitVec 16
  currentMA : Vector (BitVec 16) 40
  tempBits : F32
  tstatus : BitVec 32
  trailer : Option (BitVec 32)
deriving DecidableEq, Repr

/-- The telemetry event of the source's section 6 (R170). -/
structure TelemetryEvent where
  currents : Vector F64 40
  temperature : F64
  status : BitVec 32
deriving DecidableEq, Repr

/-- What the block presents to the host when an operation ends (R48, R61; log 2). -/
inductive Output
  /-- No result (NOP, CLEAR, reset). -/
  | nothing
  /-- FEED: `status`, `cause`, and the event when there is one (R130, R143, R144). -/
  | feed (status : Status) (cause : Cause) (event : Option Event)
  /-- One byte: READ, CRC8_STEP, CRC8_SEQ. -/
  | byte (v : Byte)
  /-- A byte sequence: ENCODE, STUFF, STUFF_SEQ. -/
  | bytes (bs : List Byte)
  /-- An error of ENCODE, TELEM or TelemDecode with its information (R180). -/
  | error (cause : Cause) (info : Option Nat)
  /-- TELEM, TelemDecode: the sample and its section 6 event (R161, R170; log 18). -/
  | sample (smp : Sample) (event : TelemetryEvent)
  /-- UNSTUFF_STEP: `(pf', r)` (R112). -/
  | unstuffStep (pf : Bool) (r : Unstuffed)
  /-- UNSTUFF_SEQ: `(s, pf)`, or none for `ERR` (R113). -/
  | unstuffSeq (r : Option (List Byte × Bool))
  /-- toAmps, tempF64 (R167, R168). -/
  | f64 (x : F64)
  /-- is_telemetry (R169). -/
  | bit (b : Bool)
deriving DecidableEq, Repr

/-- The whole machine. -/
structure State where
  /-- The decoder's registers (R20). -/
  dec : Decoder
  /-- The configuration, which no operation changes (R31, R200). -/
  cfg : BlockConfig
  /-- MODEL'S OWN: the host inputs still to come, first at the head (R5, R48; log 1). -/
  inbox : List HostInput
  /-- The outputs of the last operation (R48; log 2). -/
  out : Output
  /-- MODEL'S OWN: how many host inputs have been taken; it indexes the free values
  (log 6). -/
  draws : Nat
deriving DecidableEq, Repr

/-- Why a step stops with a fault. -/
inductive Fault
  /-- An access to entry `index` of `buf`, which does not exist (R28, R40): raised by
  FEED_DATA, READ, TELEM and the CRC arms when `cnt` or `len` is beyond 128, which R34
  excludes from every reachable state. Safe. -/
  | noSuchEntry (index : Nat)
deriving DecidableEq, Repr

/-- Why a step is refused. -/
inductive Refusal
  /-- Raised by `exec`'s arm of an instruction that has no meaning yet. Safe. -/
  | notModelled (mnemonic : String)
  /-- Raised by an operation word with select `110` or `111`: reserved, no step (R62). Safe. -/
  | reservedSelect (sel : BitVec 3)
  /-- Raised by an arm of FEED taken out of FEED, in a state or on a byte that does not select
  it (R130, R182). No step of the machine raises it. Safe (log 9). -/
  | armNotSelected
  /-- Raised by a host request at the ports of a row that has none (R61). Safe (log 12). -/
  | notCombinational
  /-- Raised by the decoder on a byte that is neither of the two command codes with a row
  (R70). No step of the machine raises it. Safe. -/
  | unnamedCommand
  /-- Raised by building a block with another `TELEM_PAYLOAD_LEN` than 90 or 94 (R8, R188).
  Safe. -/
  | badPayloadLen (n : Nat)
deriving DecidableEq, Repr

/-- The decoder's registers after reset or CLEAR (R33). `buf` lists nothing: every entry is
`any value`, drawn for this reset or CLEAR. -/
def Decoder.reset (epoch : Nat) : Decoder :=
  { st := .waitFend, crc := 0x00#8, prevFesc := false, cmd := 0x00#8, hasAddr := false,
    addr := 0x00#7, len := 0#8, cnt := 0#8, buf := [], bufEpoch := epoch,
    status := .pending, cause := .none }

/-- The machine right after reset (R33, R200): the decoder at its reset values, the
configuration as built (log 7, log 8), no host input waiting (log 1). -/
def State.reset : State :=
  { dec := Decoder.reset 0
    cfg := { layout := Config.firmwareLayout, rounding := .nearestEven }
    inbox := []
    out := .nothing
    draws := 0 }

end Sys2Proof.Machine
end

