-- ==== Sys2Proof/WellFormed.lean ====
section
/-! DEFINITION. Which instruction terms stand for words of their row: the byte condition of
the opcode table's FEED arms (spec 43_decoder R132, R133, R138, R139). -/

namespace Sys2Proof

/-- The operand conditions that a row's bits alone decide. -/
def Instr.wf : Instr → Bool
  | .nop _ => true
  | .feed _ => true
  | .clear _ => true
  | .encode _ _ => true
  | .read _ => true
  | .telem _ => true
  | .reserved110 _ => true
  | .reserved111 _ => true
  | .feedFend => true
  | .feedDiscard b => b != Config.fend
  | .feedEscBegin => true
  | .feedEscTfend => true
  | .feedEscTfesc => true
  | .feedEscErr b => b != Config.fend && b != Config.tfend && b != Config.tfesc
  | .feedAddr _ => true
  | .feedCmd0 _ => true
  | .feedCmd1 _ => true
  | .feedCmdBad _ => true
  | .feedLen v => v ≤ 128#8
  | .feedLenBad v => 128#8 < v
  | .feedData _ => true
  | .feedCrcOk _ => true
  | .feedCrcBad _ => true
  | .crc8Step _ _ => true
  | .crc8Seq _ _ => true
  | .stuff _ => true
  | .stuffSeq _ => true
  | .unstuffStep _ _ => true
  | .unstuffSeq _ => true
  | .telemDecode _ => true
  | .toAmps _ => true
  | .tempF64 _ => true
  | .isTelemetry => true
  | .cmdTelemetry => true
  | .cmdInvalidSentinel => true

/-- A host operation the block offers: any operation word, or a combinational row (R61). -/
def HostOp.wf : HostOp → Bool
  | .word _ _ => true
  | .call i => i.format == .combinational

end Sys2Proof
end

