-- ==== Sys2Proof/Decode.lean ====
section
/-! DEFINITION. The decoder, total on every operation word and every byte, and the encoder.
Operation words are spec 30_encoding R60 to R63; which arm of FEED a byte selects is
43_decoder R130. -/

namespace Sys2Proof

open Machine (wordOp wordData opWordOf bit7 low7 withBit7 clearBit7)

/-- Why the decoder rejects. -/
inductive DecodeError
  /-- A request at the ports of a row that is not a combinational function (R61). -/
  | notCombinational
  /-- A byte that is none of the two named command codes (R70). -/
  | unnamedCommand
deriving DecidableEq, Repr

/-- The operation map (R61): operation word `w` with payload port `p`. Every word is a row;
the reserved selects are rows of their own (R62). -/
def decodeWord (w : OpWord) (p : List Byte) : Instr :=
  let data := wordData w
  if wordOp w = 0b000#3 then .nop data
  else if wordOp w = 0b001#3 then .feed data
  else if wordOp w = 0b010#3 then .clear data
  else if wordOp w = 0b011#3 then .encode data p
  else if wordOp w = 0b100#3 then .read data
  else if wordOp w = 0b101#3 then .telem data
  else if wordOp w = 0b110#3 then .reserved110 data
  else .reserved111 data

/-- A host operation: a word, or a combinational function at its own ports (R61). -/
def decodeHost : HostOp → Except DecodeError Instr
  | .word w p => .ok (decodeWord w p)
  | .call i => if i.format = .combinational then .ok i else .error .notCombinational

/-- The arm an unstuffed byte selects, by the decoder's state (R130, last part). Outside a
frame no byte reaches the escape stage: the discard stands there (R132). -/
def selectData (d : Machine.Decoder) (v : Byte) : Instr :=
  match d.st with
  | .waitFend => .feedDiscard v
  | .waitAddrOrCmd => if bit7 v then .feedAddr (low7 v) else .feedCmd0 (low7 v)
  | .waitCmd => if bit7 v then .feedCmdBad (low7 v) else .feedCmd1 (low7 v)
  | .waitNbt => if v ≤ 128#8 then .feedLen v else .feedLenBad v
  | .waitData =>
    if d.cnt < d.len then .feedData v
    else if v = d.crc then .feedCrcOk v
    else .feedCrcBad v

/-- The arm a raw byte selects, in the order of R182. -/
def selectRaw (d : Machine.Decoder) (b : Byte) : Instr :=
  if b = Config.fend then .feedFend
  else if d.st = .waitFend then .feedDiscard b
  else if d.prevFesc then
    if b = Config.tfend then .feedEscTfend
    else if b = Config.tfesc then .feedEscTfesc
    else .feedEscErr b
  else if b = Config.fesc then .feedEscBegin
  else selectData d b

/-- The two named command codes (R70). -/
def decodeCommand (c : Byte) : Except DecodeError Instr :=
  if c = Config.telemCmd then .ok .cmdTelemetry
  else if c = Config.invalidCmd then .ok .cmdInvalidSentinel
  else .error .unnamedCommand

/-- The instruction that the bits `c` are, with the decoder's registers `d` at hand: the FEED
arms are selected by `st` as well, which is the block's program counter (R21). -/
def decode (d : Machine.Decoder) : Code → Except DecodeError Instr
  | .host op => decodeHost op
  | .rawByte b => .ok (selectRaw d b)
  | .dataByte v => .ok (selectData d v)
  | .commandCode c => decodeCommand c

/-- The bits of an instruction, from the opcode table and R60 to R67. -/
def encode : Instr → Code
  | .nop data => .host (.word (opWordOf 0b000#3 data) [])
  | .feed b => .host (.word (opWordOf 0b001#3 b) [])
  | .clear data => .host (.word (opWordOf 0b010#3 data) [])
  | .encode c p => .host (.word (opWordOf 0b011#3 c) p)
  | .read i => .host (.word (opWordOf 0b100#3 i) [])
  | .telem data => .host (.word (opWordOf 0b101#3 data) [])
  | .reserved110 data => .host (.word (opWordOf 0b110#3 data) [])
  | .reserved111 data => .host (.word (opWordOf 0b111#3 data) [])
  | .feedFend => .rawByte Config.fend
  | .feedDiscard b => .rawByte b
  | .feedEscBegin => .rawByte Config.fesc
  | .feedEscTfend => .rawByte Config.tfend
  | .feedEscTfesc => .rawByte Config.tfesc
  | .feedEscErr b => .rawByte b
  | .feedAddr a => .dataByte (withBit7 a)
  | .feedCmd0 c => .dataByte (clearBit7 c)
  | .feedCmd1 c => .dataByte (clearBit7 c)
  | .feedCmdBad x => .dataByte (withBit7 x)
  | .feedLen v => .dataByte v
  | .feedLenBad v => .dataByte v
  | .feedData v => .dataByte v
  | .feedCrcOk v => .dataByte v
  | .feedCrcBad v => .dataByte v
  | .crc8Step crc b => .host (.call (.crc8Step crc b))
  | .crc8Seq init bs => .host (.call (.crc8Seq init bs))
  | .stuff b => .host (.call (.stuff b))
  | .stuffSeq bs => .host (.call (.stuffSeq bs))
  | .unstuffStep pf raw => .host (.call (.unstuffStep pf raw))
  | .unstuffSeq bs => .host (.call (.unstuffSeq bs))
  | .telemDecode p => .host (.call (.telemDecode p))
  | .toAmps m => .host (.call (.toAmps m))
  | .tempF64 t => .host (.call (.tempF64 t))
  | .isTelemetry => .host (.call .isTelemetry)
  | .cmdTelemetry => .commandCode Config.telemCmd
  | .cmdInvalidSentinel => .commandCode Config.invalidCmd

/-- The "condition" column of the opcode table: when a row applies (R131 to R142). Rows that
are host operations or command codes apply always. In `WAIT_DATA` the CRC arms follow R130's
`elif`: `cnt` is not below `len`, which is `cnt` = `len` in every legal state (R34). -/
def rowApplies (d : Machine.Decoder) : Instr → Bool
  | .nop _ => true
  | .feed _ => true
  | .clear _ => true
  | .encode _ _ => true
  | .read _ => true
  | .telem _ => true
  | .reserved110 _ => true
  | .reserved111 _ => true
  | .feedFend => true
  | .feedDiscard b => d.st == .waitFend && b != Config.fend
  | .feedEscBegin => d.st != .waitFend && !d.prevFesc
  | .feedEscTfend => d.st != .waitFend && d.prevFesc
  | .feedEscTfesc => d.st != .waitFend && d.prevFesc
  | .feedEscErr b => d.st != .waitFend && d.prevFesc &&
      (b != Config.tfend && b != Config.tfesc && b != Config.fend)
  | .feedAddr _ => d.st == .waitAddrOrCmd
  | .feedCmd0 _ => d.st == .waitAddrOrCmd
  | .feedCmd1 _ => d.st == .waitCmd
  | .feedCmdBad _ => d.st == .waitCmd
  | .feedLen v => d.st == .waitNbt && v ≤ 128#8
  | .feedLenBad v => d.st == .waitNbt && 128#8 < v
  | .feedData _ => d.st == .waitData && d.cnt < d.len
  | .feedCrcOk v => d.st == .waitData && !(d.cnt < d.len) && v == d.crc
  | .feedCrcBad v => d.st == .waitData && !(d.cnt < d.len) && v != d.crc
  | .crc8Step _ _ => true
  | .crc8Seq _ _ => true
  | .stuff _ => true
  | .stuffSeq _ => true
  | .unstuffStep _ _ => true
  | .unstuffSeq _ => true
  | .telemDecode _ => true
  | .toAmps _ => true
  | .tempF64 _ => true
  | .isTelemetry => true
  | .cmdTelemetry => true
  | .cmdInvalidSentinel => true

/-- The row that one byte's bits name where the decoder's registers are not at hand: the
table's row that fixes most bits, and of rows with the same bits the first (log 11). -/
def rowOfByte (b : Byte) : Instr :=
  if b = Config.fend then .feedFend
  else if b = Config.fesc then .feedEscBegin
  else if b = Config.tfend then .feedEscTfend
  else if b = Config.tfesc then .feedEscTfesc
  else if b = Config.telemCmd then .cmdTelemetry
  else if b = Config.invalidCmd then .cmdInvalidSentinel
  else if bit7 b then .feedAddr (low7 b)
  else .feedCmd0 (low7 b)

/-- The instruction of a table row's word `w`: 8 bits are a byte, 11 bits (in whole bytes, 16)
an operation word with nothing at the payload port. -/
def decodeTableWord (nbits w : Nat) : Option Instr :=
  if nbits = 8 then
    if w < 256 then some (rowOfByte (BitVec.ofNat 8 w)) else none
  else if nbits = 16 || nbits = 11 then
    if w < 2048 then some (decodeWord (BitVec.ofNat 11 w) []) else none
  else none

end Sys2Proof
end

