-- ==== Sys2Proof/Machine/Flags.lean ====
section
/-! DEFINITION. The flags `prev_fesc`, `status`, `cause` and the classification output: how
each is computed, and the codes of spec 10_state R21, R29 and 60_exceptions R180. -/

namespace Sys2Proof.Machine

/-- The 3-bit code of `st` (R21). -/
def FsmState.code : FsmState → BitVec 3
  | .waitFend => 0
  | .waitAddrOrCmd => 1
  | .waitCmd => 2
  | .waitNbt => 3
  | .waitData => 4

/-- The 2-bit code of `status` (R29). -/
def Status.code : Status → BitVec 2
  | .pending => 0
  | .complete => 1
  | .invalid => 2

/-- The 4-bit cause code (R180). -/
def Cause.code : Cause → BitVec 4
  | .none => 0
  | .escErr => 1
  | .cmdBit7 => 2
  | .lenTooBig => 3
  | .crcMismatch => 4
  | .frameRestart => 5
  | .encTooLong => 6
  | .telemBadLen => 7
  | .telemNoFrame => 8

/-- The new `prev_fesc` after raw byte `b` (R23, R148). -/
def fescFlag (b : Byte) : Bool := b == Config.fesc

/-- The `cause` a raw `FEND` gives: `FRAME_RESTART` inside a frame (R131). -/
def fendCause (st : FsmState) : Cause :=
  if st = .waitFend then .none else .frameRestart

/-- `is_telemetry`: `status` = `COMPLETE` and `cmd` = `TELEM_CMD` (R169). -/
def isTelemetry (status : Status) (cmd : Byte) : Bool :=
  status == .complete && cmd == Config.telemCmd

/-- The classification output of the block (R169). -/
def Decoder.isTelemetry (d : Decoder) : Bool := Machine.isTelemetry d.status d.cmd

end Sys2Proof.Machine
end

