-- ==== Sys2Proof/Machine/Ops.lean ====
section
/-! DEFINITION. The shared operations: `buf` (spec 20_memory R41), the answers of an
operation, abandon and restart (60_exceptions R181, R185), CLEAR and reset (10_state R33), and
taking a host input (20_memory R48, 70_reset R200). -/

namespace Sys2Proof.Machine

/-- What every meaning answers. -/
abbrev Answer := Host.Outcome State Fault Refusal

/-! ### The payload buffer -/

/-- The byte listed for entry `i`, none when nothing has written it (R41; log 3). -/
def Memory.read : Memory → Nat → Option Byte
  | [], _ => none
  | (j, w) :: m, i => if i = j then some w else Memory.read m i

/-- Entry `i` becomes `v`; the indexes stay strictly rising (R41). -/
def Memory.write : Memory → Nat → Byte → Memory
  | [], i, v => [(i, v)]
  | (j, w) :: m, i, v =>
    if i < j then (i, v) :: (j, w) :: m
    else if i = j then (i, v) :: m
    else (j, w) :: Memory.write m i v

/-- The indexes rise strictly from `lo` and stay below 128. -/
def Memory.wfFrom : Nat → Memory → Bool
  | _, [] => true
  | lo, (j, _) :: m => lo ≤ j && j < Config.maxPayload && Memory.wfFrom (j + 1) m

/-- The canonical form of `buf`: entries in strictly rising order of index, each index one of
the 128 that exist (R28). -/
def Memory.wf (m : Memory) : Bool := Memory.wfFrom 0 m

/-- `BufRead(i)` (R41): the last byte written, or `any value` if none has been. -/
def bufRead (d : Decoder) (i : Nat) : Byte :=
  match Memory.read d.buf i with
  | some v => v
  | none => Config.bufAny d.bufEpoch i

/-- `BufWrite(i, v)` (R41), with 0 ≤ `i` ≤ 127; entry 128 and above do not exist (R28). -/
def bufWrite (i : Nat) (v : Byte) (d : Decoder) : Except Fault Decoder :=
  if i < Config.maxPayload then .ok { d with buf := Memory.write d.buf i v }
  else .error (.noSuchEntry i)

/-- `buf[0..n)` (R11, R53). -/
def bufSlice (d : Decoder) (n : Nat) : List Byte := (List.range n).map (bufRead d)

/-- `buf[0..len)`, the frame's payload (R53). -/
def payload (d : Decoder) : List Byte := bufSlice d d.len.toNat

/-- Continue with `buf[0..len)`; a `len` beyond the buffer names entries that do not exist. -/
def withPayload (d : Decoder) (k : List Byte → Answer) : Answer :=
  if d.len.toNat ≤ Config.maxPayload then k (payload d)
  else .fault (.noSuchEntry Config.maxPayload)

/-! ### Answers -/

/-- The operation ends with output `o` and changes no register (R47). -/
def answer (o : Output) (s : State) : Answer := .next { s with out := o }

/-- The event record, the registers as they stand and the payload (R144). -/
def eventOf (d : Decoder) (p : List Byte) : Event :=
  { kind := d.status, hasAddr := d.hasAddr, addr := d.addr, cmd := d.cmd, len := d.len,
    payload := p }

/-- A FEED ends with the registers `d`: it presents `status`, `cause` and, when `status` is
not `PENDING`, the event (R143, R144). -/
def presentFeed (d : Decoder) (s : State) : Answer :=
  if d.status = .pending then
    .next { s with dec := d, out := .feed d.status d.cause none }
  else
    withPayload d fun p =>
      .next { s with dec := d, out := .feed d.status d.cause (some (eventOf d p)) }

/-- A FEED arm's result as an answer. -/
def finishFeed (r : Except Fault Decoder) (s : State) : Answer :=
  match r with
  | .ok d => presentFeed d s
  | .error f => .fault f

/-- Run the arm of row `i` where the row's condition holds (R130); elsewhere the arm is not
part of any operation (log 9). -/
def runArm (i : Instr) (r : Decoder → Except Fault Decoder) (s : State) : Answer :=
  if rowApplies s.dec i then finishFeed (r s.dec) s else .refused .armNotSelected

/-! ### Errors and recovery: the block's exception entry and its end -/

/-- Abandon (R181): the block's one error entry. `st` to `WAIT_FEND`, `cause` to the code,
`status` to `PENDING`; no other register changes (R184). -/
def abandon (c : Cause) (d : Decoder) : Decoder :=
  { d with st := .waitFend, cause := c, status := .pending }

/-- The CRC result (R141, R142): `st` to `WAIT_FEND`, `status` and `cause` as given; every
other register keeps its value for the event (R184). -/
def endFrame (k : Status) (c : Cause) (d : Decoder) : Decoder :=
  { d with st := .waitFend, cause := c, status := k }

/-- What every FEED of a byte other than `FEND` writes first: `prev_fesc`, `status`
`PENDING`, `cause` `NONE` (R130, R143). -/
def beginFeed (pf : Bool) (d : Decoder) : Decoder :=
  { d with prevFesc := pf, status := .pending, cause := .none }

/-! ### CLEAR and reset -/

/-- Every decoder register to its reset value (R33); `buf` is drawn anew. -/
def clearDecoder (s : State) : State :=
  { s with dec := Decoder.reset s.draws, out := .nothing }

/-- Hardware reset between two operations (R200): the effect of CLEAR; the configuration
stays. -/
def hardwareReset (s : State) : State := clearDecoder s

/-! ### Building a block -/

/-- The layout of `TELEM_PAYLOAD_LEN` = `n`, if legal (R8). -/
def layoutOfLen (n : Nat) : Option TelemLayout :=
  if n = 90 then some .len90 else if n = 94 then some .len94 else none

/-- Build a block with `TELEM_PAYLOAD_LEN` = `n` and the given `toAmps`, and reset it (R8,
R9, R188, R202). -/
def buildBlock (n : Nat) (r : AmpsRounding) : Answer :=
  match layoutOfLen n with
  | some l => .next { State.reset with cfg := { layout := l, rounding := r } }
  | none => .refused (.badPayloadLen n)

/-! ### Taking a host input -/

/-- The state once the first waiting host input is taken: it leaves the list and the input
number rises (R48; log 1, log 6). -/
def takeInput (rest : List HostInput) (s : State) : State :=
  { s with inbox := rest, draws := s.draws + 1 }

/-- The refusal that a rejection of the decoder becomes. -/
def refusalOf : DecodeError → Refusal
  | .notCombinational => .notCombinational
  | .unnamedCommand => .unnamedCommand

/-! ### Where the next instruction stands -/

/-- The decoder's registers with `st` and `prev_fesc` such that a FEED of `b` selects the row
`rowOfByte b` (R21: `st` is the block's program counter; log 11). -/
def selectForByte (b : Byte) (d : Decoder) : Decoder :=
  if b = Config.fend then d
  else { d with st := .waitAddrOrCmd, prevFesc := b == Config.tfend || b == Config.tfesc }

/-- `s` with the instruction of a table row's word first among the host's inputs: an operation
word as it is; a byte as FEED of that byte, in the state that selects its row. -/
def placeInstr (s : State) (nbits w : Nat) : State :=
  if nbits = 8 then
    let b : Byte := BitVec.ofNat 8 w
    { s with
      dec := selectForByte b s.dec
      inbox := { reset := false, op := some (.word (opWordOf 0b001#3 b) []) } :: s.inbox }
  else
    { s with
      inbox := { reset := false, op := some (.word (BitVec.ofNat 11 w) []) } :: s.inbox }

end Sys2Proof.Machine
end

