-- ==== Sys2Proof/Machine/Stuffing.lean ====
section
/-! DEFINITION. Unit U2, the byte stuffer and unstuffer (spec 41_stuffing). -/

namespace Sys2Proof.Machine

/-- `STUFF(b)` (R110). -/
def stuff (b : Byte) : List Byte :=
  if b = Config.fend then [Config.fesc, Config.tfend]
  else if b = Config.fesc then [Config.fesc, Config.tfesc]
  else [b]

/-- `STUFF_SEQ(s)` (R111). -/
def stuffSeq (bs : List Byte) : List Byte := bs.flatMap stuff

/-- `UNSTUFF_STEP(pf, raw)` for `raw` ≠ `FEND` (R112). -/
def unstuffStep (pf : Bool) (raw : Byte) : Bool × Unstuffed :=
  if pf then
    if raw = Config.tfend then (false, .data Config.fend)
    else if raw = Config.tfesc then (false, .data Config.fesc)
    else (fescFlag raw, .escErr)
  else if raw = Config.fesc then (true, .skip)
  else (false, .data raw)

/-- `UNSTUFF_SEQ` from `prev_fesc` = `pf`, with `acc` unstuffed so far (R113). -/
def unstuffFrom (pf : Bool) (acc : List Byte) : List Byte → Option (List Byte × Bool)
  | [] => some (acc, pf)
  | raw :: rest =>
    match unstuffStep pf raw with
    | (_, .escErr) => none
    | (pf', .skip) => unstuffFrom pf' acc rest
    | (pf', .data v) => unstuffFrom pf' (acc ++ [v]) rest

/-- `UNSTUFF_SEQ(r)` for `r` without `FEND`; none is `ERR` (R113). -/
def unstuffSeq (bs : List Byte) : Option (List Byte × Bool) := unstuffFrom false [] bs

/-- STUFF (R110). -/
def execStuff (b : Byte) (s : State) : Answer := answer (.bytes (stuff b)) s

/-- STUFF_SEQ (R111). -/
def execStuffSeq (bs : List Byte) (s : State) : Answer := answer (.bytes (stuffSeq bs)) s

/-- UNSTUFF_STEP (R112). On a raw `FEND`, outside its precondition, the result is a free
value (log 13). -/
def execUnstuffStep (pf : Bool) (raw : Byte) (s : State) : Answer :=
  let r := if raw = Config.fend then Config.unstuffAny s.draws pf raw else unstuffStep pf raw
  answer (.unstuffStep r.1 r.2) s

/-- UNSTUFF_SEQ (R113). On a sequence that holds a `FEND`, outside its precondition, the
result is a free value (log 13). -/
def execUnstuffSeq (bs : List Byte) (s : State) : Answer :=
  answer (.unstuffSeq (if bs.elem Config.fend then Config.unstuffSeqAny s.draws bs
    else unstuffSeq bs)) s

end Sys2Proof.Machine
end

