-- ==== Sys2Proof/Machine/Encoder.lean ====
section
/-! DEFINITION. Unit U3, the frame encoder (spec 42_encoder). -/

namespace Sys2Proof.Machine

/-- `len(p)` as the length byte; exact up to 255 (R120). -/
def lenByte (p : List Byte) : Byte := BitVec.ofNat 8 p.length

/-- `CRC_TX(c, p)`: `FEND`, command, length and payload, unstuffed, in that order (R103). -/
def crcTx (c : Byte) (p : List Byte) : Byte :=
  crc8Seq Config.crcInit ([Config.fend, c, lenByte p] ++ p)

/-- The frame of `ENCODE(c, p)` for `len(p)` ≤ 128 (R120). -/
def frameOf (c : Byte) (p : List Byte) : List Byte :=
  [Config.fend] ++ stuff c ++ stuff (lenByte p) ++ stuffSeq p ++ stuff (crcTx c p)

/-- ENCODE (R120): the frame, or `ENC_TOO_LONG(len(p))` and no bytes (R123). -/
def execEncode (c : Byte) (p : List Byte) (s : State) : Answer :=
  if Config.maxPayload < p.length then answer (.error .encTooLong (some p.length)) s
  else answer (.bytes (frameOf c p)) s

end Sys2Proof.Machine
end

