-- ==== Sys2Proof/Machine/FrameDecoder.lean ====
section
/-! DEFINITION. Unit U4, the frame decoder: FEED and its arms (spec 43_decoder R130 to R144).
Each arm but `FEED_FEND` acts on the registers after `beginFeed` has written `prev_fesc`,
`status` and `cause`. -/

namespace Sys2Proof.Machine

/-! ### The arms as register updates -/

/-- `FEED_FEND` (R131): every per-frame register starts anew. -/
def armFend (d : Decoder) : Decoder :=
  { d with
    cause := fendCause d.st, status := .pending, prevFesc := false,
    crc := crc8Step Config.crcInit Config.fend,
    cmd := 0x00#8, hasAddr := false, addr := 0x00#7, len := 0#8, cnt := 0#8,
    st := .waitAddrOrCmd }

/-- `FEED_ADDR` (R134): the 7-bit value is latched and folded. -/
def armAddr (a : BitVec 7) (d : Decoder) : Decoder :=
  { d with addr := a, hasAddr := true, crc := crc8Step d.crc (clearBit7 a), st := .waitCmd }

/-- `FEED_CMD0` and `FEED_CMD1` (R135, R136). -/
def armCmd (v : Byte) (d : Decoder) : Decoder :=
  { d with cmd := v, crc := crc8Step d.crc v, st := .waitNbt }

/-- `FEED_CMD_BAD` (R137). -/
def armCmdBad (d : Decoder) : Decoder := abandon .cmdBit7 d

/-- `FEED_LEN` (R138). -/
def armLen (v : Byte) (d : Decoder) : Decoder :=
  { d with len := v, cnt := 0#8, crc := crc8Step d.crc v, st := .waitData }

/-- `FEED_LEN_BAD` (R139). -/
def armLenBad (d : Decoder) : Decoder := abandon .lenTooBig d

/-- `FEED_DATA` (R140): store at `cnt`, count, fold. -/
def armData (v : Byte) (d : Decoder) : Except Fault Decoder :=
  match bufWrite d.cnt.toNat v d with
  | .ok d' => .ok { d' with cnt := d.cnt + 1#8, crc := crc8Step d.crc v }
  | .error f => .error f

/-- `FEED_CRC_OK` (R141). -/
def armCrcOk (d : Decoder) : Decoder := endFrame .complete .none d

/-- `FEED_CRC_BAD` (R142). -/
def armCrcBad (d : Decoder) : Decoder := endFrame .invalid .crcMismatch d

/-- `FEED_ESC_ERR` (R133). -/
def armEscErr (d : Decoder) : Decoder := abandon .escErr d

/-- The state's arm for the unstuffed byte `v` (R130, last part). Outside a frame no byte gets
here. -/
def armOfState (v : Byte) (d : Decoder) : Except Fault Decoder :=
  match d.st with
  | .waitFend => .ok d
  | .waitAddrOrCmd => .ok (if bit7 v then armAddr (low7 v) d else armCmd v d)
  | .waitCmd => .ok (if bit7 v then armCmdBad d else armCmd v d)
  | .waitNbt => .ok (if v ≤ 128#8 then armLen v d else armLenBad d)
  | .waitData =>
    if d.cnt < d.len then armData v d
    else .ok (if v = d.crc then armCrcOk d else armCrcBad d)

/-- FEED's dispatch on one raw byte, in the order of R130 and R182. -/
def feedByte (b : Byte) (d : Decoder) : Except Fault Decoder :=
  if b = Config.fend then .ok (armFend d)
  else
    let u := unstuffStep d.prevFesc b
    let d' := beginFeed u.1 d
    if d.st = .waitFend then .ok d'
    else
      match u.2 with
      | .skip => .ok d'
      | .escErr => .ok (armEscErr d')
      | .data v => armOfState v d'

/-- One raw byte into the decoder, with its outputs (R130, R143, R144). -/
def feedRaw (b : Byte) (s : State) : Answer := finishFeed (feedByte b s.dec) s

/-! ### The instructions -/

/-- FEED (R130). -/
def execFeed (b : Byte) (s : State) : Answer := feedRaw b s

/-- FEED_FEND (R131): in every state, whatever `prev_fesc` holds. -/
def execFeedFend (s : State) : Answer := runArm .feedFend (fun d => .ok (armFend d)) s

/-- FEED_DISCARD (R132). -/
def execFeedDiscard (b : Byte) (s : State) : Answer :=
  runArm (.feedDiscard b) (fun d => .ok (beginFeed (fescFlag b) d)) s

/-- FEED_ESC_BEGIN (R133, `SKIP`). -/
def execFeedEscBegin (s : State) : Answer :=
  runArm .feedEscBegin (fun d => .ok (beginFeed true d)) s

/-- FEED_ESC_TFEND (R112, R133): data `0xC0` to the state's arm. -/
def execFeedEscTfend (s : State) : Answer :=
  runArm .feedEscTfend (fun d => armOfState Config.fend (beginFeed false d)) s

/-- FEED_ESC_TFESC (R112, R133): data `0xDB` to the state's arm. -/
def execFeedEscTfesc (s : State) : Answer :=
  runArm .feedEscTfesc (fun d => armOfState Config.fesc (beginFeed false d)) s

/-- FEED_ESC_ERR (R133). -/
def execFeedEscErr (b : Byte) (s : State) : Answer :=
  runArm (.feedEscErr b) (fun d => .ok (armEscErr (beginFeed (fescFlag b) d))) s

/-- FEED_ADDR (R134). -/
def execFeedAddr (a : BitVec 7) (s : State) : Answer :=
  runArm (.feedAddr a) (fun d => .ok (armAddr a (beginFeed false d))) s

/-- FEED_CMD0 (R135). -/
def execFeedCmd0 (c : BitVec 7) (s : State) : Answer :=
  runArm (.feedCmd0 c) (fun d => .ok (armCmd (clearBit7 c) (beginFeed false d))) s

/-- FEED_CMD1 (R136). -/
def execFeedCmd1 (c : BitVec 7) (s : State) : Answer :=
  runArm (.feedCmd1 c) (fun d => .ok (armCmd (clearBit7 c) (beginFeed false d))) s

/-- FEED_CMD_BAD (R137). -/
def execFeedCmdBad (x : BitVec 7) (s : State) : Answer :=
  runArm (.feedCmdBad x) (fun d => .ok (armCmdBad (beginFeed false d))) s

/-- FEED_LEN (R138). -/
def execFeedLen (v : Byte) (s : State) : Answer :=
  runArm (.feedLen v) (fun d => .ok (armLen v (beginFeed false d))) s

/-- FEED_LEN_BAD (R139). -/
def execFeedLenBad (v : Byte) (s : State) : Answer :=
  runArm (.feedLenBad v) (fun d => .ok (armLenBad (beginFeed false d))) s

/-- FEED_DATA (R140). -/
def execFeedData (v : Byte) (s : State) : Answer :=
  runArm (.feedData v) (fun d => armData v (beginFeed false d)) s

/-- FEED_CRC_OK (R141). -/
def execFeedCrcOk (v : Byte) (s : State) : Answer :=
  runArm (.feedCrcOk v) (fun d => .ok (armCrcOk (beginFeed false d))) s

/-- FEED_CRC_BAD (R142). -/
def execFeedCrcBad (v : Byte) (s : State) : Answer :=
  runArm (.feedCrcBad v) (fun d => .ok (armCrcBad (beginFeed false d))) s

/-- CMD_TELEMETRY (R70, R169): the byte `0x55` fed to the decoder, which takes it as the
command where a command stands (log 10). -/
def execCmdTelemetry (s : State) : Answer := feedRaw Config.telemCmd s

/-- CMD_INVALID_SENTINEL (R70): the byte `0xFF` fed to the decoder, which reads it as the
address `0x7F` at the head of a frame and never as a command (log 10). -/
def execCmdInvalidSentinel (s : State) : Answer := feedRaw Config.invalidCmd s

end Sys2Proof.Machine
end

