-- ==== Sys2Proof/Machine/HostOps.lean ====
section
/-! DEFINITION. The host operations besides FEED, ENCODE and TELEM: NOP, CLEAR, READ and the
reserved selects (spec 43_decoder R145 to R147, 30_encoding R62). -/

namespace Sys2Proof.Machine

/-- NOP (R146): no register changes; `data` is ignored (R63). -/
def execNop (_data : Byte) (s : State) : Answer := answer .nothing s

/-- CLEAR (R145): every decoder register to its reset value; `data` is ignored (R63). -/
def execClear (_data : Byte) (s : State) : Answer := .next (clearDecoder s)

/-- READ (R147): the payload byte in the event's window, elsewhere `any value` (log 4). -/
def execRead (i : Byte) (s : State) : Answer :=
  if s.dec.status = .pending ∨ s.dec.len ≤ i then answer (.byte (Config.readAny s.draws i)) s
  else if i.toNat < Config.maxPayload then answer (.byte (bufRead s.dec i.toNat)) s
  else .fault (.noSuchEntry i.toNat)

/-- RESERVED_110 (R62): refused, no step. -/
def execReserved110 (_data : Byte) (_s : State) : Answer := .refused (.reservedSelect 0b110#3)

/-- RESERVED_111 (R62): refused, no step. -/
def execReserved111 (_data : Byte) (_s : State) : Answer := .refused (.reservedSelect 0b111#3)

end Sys2Proof.Machine
end

