-- ==== Sys2Proof/Machine/Binary64.lean ====
section
/-! DEFINITION. The two floating-point functions of unit U5: `toAmps` and `tempF64` (spec
44_telemetry R167, R168), and the values of binary32 and binary64 patterns (R164). -/

namespace Sys2Proof.Machine

/-! ### Patterns and their values -/

/-- Exponent field of a binary32 pattern, bits 30 to 23 (R164). -/
def f32Exp (t : F32) : Nat := (t.extractLsb' 23 8).toNat
/-- Fraction field of a binary32 pattern, bits 22 to 0 (R164). -/
def f32Frac (t : F32) : Nat := (t.extractLsb' 0 23).toNat
/-- The pattern is a NaN. -/
def f32IsNan (t : F32) : Bool := f32Exp t == 255 && f32Frac t != 0
/-- The pattern is an infinity. -/
def f32IsInf (t : F32) : Bool := f32Exp t == 255 && f32Frac t == 0

/-- Exponent field of a binary64 pattern, bits 62 to 52. -/
def f64Exp (x : F64) : Nat := (x.extractLsb' 52 11).toNat
/-- Fraction field of a binary64 pattern, bits 51 to 0. -/
def f64Frac (x : F64) : Nat := (x.extractLsb' 0 52).toNat
/-- The pattern is a NaN. -/
def f64IsNan (x : F64) : Bool := f64Exp x == 2047 && f64Frac x != 0
/-- The pattern is an infinity. -/
def f64IsInf (x : F64) : Bool := f64Exp x == 2047 && f64Frac x == 0

/-- The binary64 pattern of a sign, an exponent field and a fraction field. A fraction of
`2^52` carries into the exponent. -/
def f64Pack (neg : Bool) (e f : Nat) : F64 :=
  BitVec.ofNat 64 ((if neg then 2 ^ 63 else 0) + e * 2 ^ 52 + f)

/-- `m · 2^(e - bias)`. -/
def scaledValue (neg : Bool) (m e bias : Nat) : ℚ :=
  let v : ℚ := if bias ≤ e then ((m * 2 ^ (e - bias) : Nat) : ℚ)
    else (m : ℚ) / ((2 ^ (bias - e) : Nat) : ℚ)
  if neg then -v else v

/-- The value of a finite binary32 pattern (R164). -/
def f32Value (t : F32) : ℚ :=
  if f32Exp t = 0 then scaledValue t.msb (f32Frac t) 1 150
  else scaledValue t.msb (2 ^ 23 + f32Frac t) (f32Exp t) 150

/-- The value of a finite binary64 pattern. -/
def f64Value (x : F64) : ℚ :=
  if f64Exp x = 0 then scaledValue x.msb (f64Frac x) 1 1075
  else scaledValue x.msb (2 ^ 52 + f64Frac x) (f64Exp x) 1075

/-! ### toAmps -/

/-- The integer nearest `a / d`, ties to even, for `d` > 0. -/
def divNearestEven (a d : Nat) : Nat :=
  let q := a / d
  let r := a % d
  if 2 * r < d then q
  else if d < 2 * r then q + 1
  else if q % 2 = 0 then q else q + 1

/-- `round_binary64(n / 1000)` for 0 < `n` ≤ 32768, as the pattern's low 63 bits. The quotient
lies in `[2^(E-10), 2^(E-9))` with `E = log2 ⌊1024 n / 1000⌋`; its 53-bit significand is
`n · 2^(62-E) / 1000` to nearest, ties to even; `1013 + E` is the biased exponent. -/
def ampsMagnitude (n : Nat) : Nat :=
  let e := Nat.log2 (n * 1024 / 1000)
  (1013 + e) * 2 ^ 52 + divNearestEven (n * 2 ^ (62 - e)) 1000 - 2 ^ 52

/-- The default `toAmps`: `round_binary64(m / 1000)`, to nearest, ties to even (R167). -/
def ampsNearestEven (m : BitVec 16) : F64 :=
  if m = 0#16 then 0#64
  else f64Pack m.msb 0 (ampsMagnitude (sext16 m).natAbs)

/-- The named properties of R167: (a) the sign of `m`, and +0.0 for 0; (b) monotone; (c) exact
at the multiples of 125; and a number, not a NaN. -/
abbrev AmpsLawful (f : BitVec 16 → F64) : Prop :=
  f 0#16 = 0#64 ∧
  (∀ m : BitVec 16, f64IsNan (f m) = false) ∧
  (∀ m : BitVec 16, 0 < sext16 m → 0 < f64Value (f m)) ∧
  (∀ m : BitVec 16, sext16 m < 0 → f64Value (f m) < 0) ∧
  (∀ m n : BitVec 16, sext16 m ≤ sext16 n → f64Value (f m) ≤ f64Value (f n)) ∧
  (∀ m : BitVec 16, sext16 m % 125 = 0 → f64Value (f m) = (sext16 m : ℚ) / 1000)

/-- The device's own conversion, known only by the named properties of R167 (log 8). -/
def ampsDevice (m : BitVec 16) : F64 :=
  if AmpsLawful Config.deviceAmps then Config.deviceAmps m else ampsNearestEven m

/-- `toAmps(m)` under the block's configuration (R9, R167). -/
def toAmps (r : AmpsRounding) (m : BitVec 16) : F64 :=
  match r with
  | .nearestEven => ampsNearestEven m
  | .device => ampsDevice m

/-! ### tempF64 -/

/-- The exponent and fraction of a subnormal binary32 fraction `f` > 0 as a binary64: `f` is
`f · 2^-149`, normalised by its leading bit `k`. -/
def widenSubnormal (neg : Bool) (f : Nat) : F64 :=
  let k := Nat.log2 f
  f64Pack neg (874 + k) (f * 2 ^ (52 - k) - 2 ^ 52)

/-- Some binary64 NaN: sign and payload are free, the fraction is not 0 (R168; log 5). -/
def anyNan (n : Nat) (t : F32) : F64 :=
  let x := Config.nanAny n t
  let f := (x.extractLsb' 0 52).toNat
  f64Pack x.msb 2047 (if f = 0 then 1 else f)

/-- `tempF64(t)`: the exact widening of a binary32 pattern; a NaN gives some NaN, drawn by the
input number `n` (R168). -/
def tempF64 (n : Nat) (t : F32) : F64 :=
  if f32IsNan t then anyNan n t
  else if f32IsInf t then f64Pack t.msb 2047 0
  else if f32Exp t = 0 then
    if f32Frac t = 0 then f64Pack t.msb 0 0 else widenSubnormal t.msb (f32Frac t)
  else f64Pack t.msb (f32Exp t + 896) (f32Frac t * 2 ^ 29)

/-- toAmps (R167). -/
def execToAmps (m : BitVec 16) (s : State) : Answer :=
  answer (.f64 (toAmps s.cfg.rounding m)) s

/-- tempF64 (R168). -/
def execTempF64 (t : F32) (s : State) : Answer := answer (.f64 (tempF64 s.draws t)) s

end Sys2Proof.Machine
end

