-- ==== Sys2Proof/Machine/Telemetry.lean ====
section
/-! DEFINITION. Unit U5, the telemetry-field decoder (spec 44_telemetry, 30_encoding R72). -/

namespace Sys2Proof.Machine

/-- The pattern of `current_mA[k]`, at offset 2 + 2k (R72, R163). -/
def currentField (p : List Byte) (k : Nat) : BitVec 16 := fieldLE p (2 + 2 * k) 2

/-- The 40 current fields in payload order (R163). -/
def currentFields (p : List Byte) : Vector (BitVec 16) 40 :=
  ⟨((List.range 40).map (currentField p)).toArray, by simp⟩

/-- The sample of a payload of the right length (R161 to R166, R72). -/
def sampleOf (l : TelemLayout) (p : List Byte) : Sample :=
  { counter := fieldLE p 0 2
    currentMA := currentFields p
    tempBits := fieldLE p 82 4
    tstatus := fieldLE p 86 4
    trailer :=
      match l with
      | .len90 => none
      | .len94 => some (fieldLE p 90 4) }

/-- `TelemDecode(p)` (R161): none is `TELEM_BAD_LEN(len(p))`. -/
def telemDecode (l : TelemLayout) (p : List Byte) : Option Sample :=
  if p.length = l.payloadLen then some (sampleOf l p) else none

/-- `current_mA[k]`, a signed value in milliamps (R163). -/
def milliamps (smp : Sample) (k : Fin 40) : Int := sext16 smp.currentMA[k]

/-- The section 6 event of a sample (R170). -/
def telemetryEvent (r : AmpsRounding) (n : Nat) (smp : Sample) : TelemetryEvent :=
  { currents := smp.currentMA.map (toAmps r)
    temperature := tempF64 n smp.tempBits
    status := smp.tstatus }

/-- The result of decoding `p`: the sample with its event, or the error with the length
(R161, R170, R187). -/
def telemResult (s : State) (p : List Byte) : Output :=
  match telemDecode s.cfg.layout p with
  | some smp => .sample smp (telemetryEvent s.cfg.rounding s.draws smp)
  | none => .error .telemBadLen (some p.length)

/-- TELEM (R160): `TELEM_NO_FRAME` is tested first (R182); the command is not tested. -/
def execTelem (_data : Byte) (s : State) : Answer :=
  if s.dec.status = .complete then withPayload s.dec fun p => answer (telemResult s p) s
  else answer (.error .telemNoFrame none) s

/-- TelemDecode (R161). -/
def execTelemDecode (p : List Byte) (s : State) : Answer := answer (telemResult s p) s

/-- is_telemetry (R169). -/
def execIsTelemetry (s : State) : Answer := answer (.bit s.dec.isTelemetry) s

end Sys2Proof.Machine
end

