-- ==== Sys2Proof/Machine/Dispatch.lean ====
section
/-! DEFINITION. One arm per constructor of `Instr`: each calls its meaning. -/

namespace Sys2Proof.Machine

/-- The meaning of one instruction on one state. -/
def exec (i : Instr) (s : State) : Host.Outcome State Fault Refusal :=
  match i with
  -- operation words (spec 30_encoding R61)
  | .nop data => Sys2Proof.Machine.execNop data s
  | .feed b => Sys2Proof.Machine.execFeed b s
  | .clear data => Sys2Proof.Machine.execClear data s
  | .encode c p => Sys2Proof.Machine.execEncode c p s
  | .read idx => Sys2Proof.Machine.execRead idx s
  | .telem data => Sys2Proof.Machine.execTelem data s
  | .reserved110 data => Sys2Proof.Machine.execReserved110 data s
  | .reserved111 data => Sys2Proof.Machine.execReserved111 data s
  -- the arms of FEED (spec 43_decoder R131 to R142)
  | .feedFend => Sys2Proof.Machine.execFeedFend s
  | .feedDiscard b => Sys2Proof.Machine.execFeedDiscard b s
  | .feedEscBegin => Sys2Proof.Machine.execFeedEscBegin s
  | .feedEscTfend => Sys2Proof.Machine.execFeedEscTfend s
  | .feedEscTfesc => Sys2Proof.Machine.execFeedEscTfesc s
  | .feedEscErr b => Sys2Proof.Machine.execFeedEscErr b s
  | .feedAddr a => Sys2Proof.Machine.execFeedAddr a s
  | .feedCmd0 c => Sys2Proof.Machine.execFeedCmd0 c s
  | .feedCmd1 c => Sys2Proof.Machine.execFeedCmd1 c s
  | .feedCmdBad x => Sys2Proof.Machine.execFeedCmdBad x s
  | .feedLen v => Sys2Proof.Machine.execFeedLen v s
  | .feedLenBad v => Sys2Proof.Machine.execFeedLenBad v s
  | .feedData v => Sys2Proof.Machine.execFeedData v s
  | .feedCrcOk v => Sys2Proof.Machine.execFeedCrcOk v s
  | .feedCrcBad v => Sys2Proof.Machine.execFeedCrcBad v s
  -- the combinational functions (spec 30_encoding R61)
  | .crc8Step crc b => Sys2Proof.Machine.execCrc8Step crc b s
  | .crc8Seq init bs => Sys2Proof.Machine.execCrc8Seq init bs s
  | .stuff b => Sys2Proof.Machine.execStuff b s
  | .stuffSeq bs => Sys2Proof.Machine.execStuffSeq bs s
  | .unstuffStep pf raw => Sys2Proof.Machine.execUnstuffStep pf raw s
  | .unstuffSeq bs => Sys2Proof.Machine.execUnstuffSeq bs s
  | .telemDecode p => Sys2Proof.Machine.execTelemDecode p s
  | .toAmps m => Sys2Proof.Machine.execToAmps m s
  | .tempF64 t => Sys2Proof.Machine.execTempF64 t s
  | .isTelemetry => Sys2Proof.Machine.execIsTelemetry s
  -- the named command codes (spec 30_encoding R70)
  | .cmdTelemetry => Sys2Proof.Machine.execCmdTelemetry s
  | .cmdInvalidSentinel => Sys2Proof.Machine.execCmdInvalidSentinel s

end Sys2Proof.Machine
end

