-- ==== Sys2Proof/Machine/Inputs.lean ====
section
/-! DEFINITION. What the host's inputs do, one at a time (spec 20_memory R48, 70_reset R200). -/

namespace Sys2Proof.Machine

/-- What a host input does, once taken: reset wins over an operation (R200); otherwise the
operation is decoded and executed; an input with neither changes nothing. -/
def runInput (i : HostInput) (s : State) : Answer :=
  if i.reset then .next (hardwareReset s)
  else
    match i.op with
    | none => .next s
    | some op =>
      match decodeHost op with
      | .ok ins => exec ins s
      | .error e => .refused (refusalOf e)

/-- The first waiting host input is taken and run. With none waiting the block stands still
(R208: it never halts; log 1). -/
def runNext (s : State) : Answer :=
  match s.inbox with
  | [] => .next s
  | i :: rest => runInput i (takeInput rest s)

end Sys2Proof.Machine
end

