-- ==== Sys2Proof/Machine/Step.lean ====
section
/-! DEFINITION. One step of the machine, and where an instruction is placed so that the next
step runs it. -/

namespace Sys2Proof.Machine

/-- One step: the first waiting host input (R48). -/
def step (s : State) : Host.Outcome State Fault Refusal := runNext s

/-- `s` with the instruction of a table row's word placed where `step` takes its next
instruction: first among the host's inputs (log 1, log 11). -/
def State.withFetchWord (s : State) (nbits w : Nat) : State := placeInstr s nbits w

end Sys2Proof.Machine
end

