-- ==== Sys2Proof/Machine/Programs.lean ====
section
/-! DEFINITION. Host programs as lists of host inputs (spec 30_encoding R73) and the
pseudo-operations FEEDS, LOOPBACK and READALL (R74). -/

namespace Sys2Proof.Machine

/-- The host input that issues an operation word with a payload beside it. -/
def issue (op : BitVec 3) (data : Byte) (p : List Byte) : HostInput :=
  { reset := false, op := some (.word (opWordOf op data) p) }

/-- The host input that asserts reset (R200). -/
def issueReset : HostInput := { reset := true, op := none }

/-- `FEED b`. -/
def issueFeed (b : Byte) : HostInput := issue 0b001#3 b []

/-- `FEEDS b0, ..., bk` (R74). -/
def feeds (bs : List Byte) : List HostInput := bs.map issueFeed

/-- `LOOPBACK c, [p...]` (R74): ENCODE, then FEEDS of the frame, if there is one. -/
def loopback (c : Byte) (p : List Byte) : List HostInput :=
  issue 0b011#3 c p ::
    (if Config.maxPayload < p.length then [] else feeds (frameOf c p))

/-- `READALL` (R74), with `len` as it stands before the first READ. -/
def readAll (d : Decoder) : List HostInput :=
  (List.range d.len.toNat).map fun i => issue 0b100#3 (BitVec.ofNat 8 i) []

end Sys2Proof.Machine
end

