-- ==== Sys2Proof/Safety.lean ====
section
/-! DEFINITION. What counts as a legal state (spec 10_state R34), as a safe outcome (93 section
1: nothing is a fault) and as a run of FEEDs, in the terms the statements use. -/

namespace Sys2Proof.Machine

/-! ### Legal decoder states -/

/-- `A` of R34 item 8 and R104: the folded address, if the frame carried one. -/
def addrPart (d : Decoder) : List Byte := if d.hasAddr then [clearBit7 d.addr] else []

/-- `CRC8_SEQ` over `FEND`, the address if any, the command, the length and the first `n`
payload bytes: `CRC_RX` of R104 for `n` = `len`. -/
def crcRx (d : Decoder) (n : Nat) : Byte :=
  crc8Seq Config.crcInit ([Config.fend] ++ addrPart d ++ [d.cmd, d.len] ++ bufSlice d n)

/-- The invariants of R34. Item 1 and the first half of item 6 hold by the types (log 15). -/
structure LegalDecoder (d : Decoder) : Prop where
  /-- Item 2, first half. -/
  cnt_le_len : d.cnt ≤ d.len
  /-- Item 2, second half. -/
  len_le_max : d.len ≤ 128#8
  /-- Item 3. -/
  header_empty : d.st = .waitAddrOrCmd ∨ d.st = .waitCmd ∨ d.st = .waitNbt →
    d.len = 0#8 ∧ d.cnt = 0#8
  /-- Item 4, first half. -/
  no_addr_yet : d.st = .waitAddrOrCmd → d.hasAddr = false
  /-- Item 4, second half. -/
  addr_seen : d.st = .waitCmd → d.hasAddr = true
  /-- Item 5. -/
  cmd_bit7 : bit7 d.cmd = false
  /-- Item 6, second half. -/
  status_idle : d.status ≠ .pending → d.st = .waitFend
  /-- Item 7. -/
  cause_range : d.cause.code ≤ 5#4
  /-- Item 8. -/
  crc_data : d.st = .waitData → d.crc = crcRx d d.cnt.toNat

/-- `LegalDecoder` made inductive: what the frame's header has folded so far (R131, R134 to
R136), what a CRC result leaves (R104, R141, R142), and the buffer's form (R41, R53). -/
structure SoundDecoder (d : Decoder) : Prop extends LegalDecoder d where
  /-- After `FEND` the accumulator holds its fold. -/
  crc_fend : d.st = .waitAddrOrCmd → d.crc = crc8Seq Config.crcInit [Config.fend]
  /-- After the address. -/
  crc_addr : d.st = .waitCmd → d.crc = crc8Seq Config.crcInit ([Config.fend] ++ addrPart d)
  /-- After the command. -/
  crc_cmd : d.st = .waitNbt →
    d.crc = crc8Seq Config.crcInit ([Config.fend] ++ addrPart d ++ [d.cmd])
  /-- An address register without its flag is clear. -/
  addr_clear : d.hasAddr = false → d.addr = 0#7
  /-- An event has its whole payload. -/
  event_full : d.status ≠ .pending → d.cnt = d.len
  /-- An event's accumulator is `CRC_RX`. -/
  event_crc : d.status ≠ .pending → d.crc = crcRx d d.len.toNat
  /-- The bytes counted have been written. -/
  written : ∀ i, i < d.cnt.toNat → (Memory.read d.buf i).isSome = true
  /-- The buffer is in canonical form. -/
  buf_wf : Memory.wf d.buf = true

/-- Two decoders that agree on every register but the contents of `buf` and `cause`. -/
def SameButBufAndCause (d e : Decoder) : Prop :=
  d.st = e.st ∧ d.crc = e.crc ∧ d.prevFesc = e.prevFesc ∧ d.cmd = e.cmd ∧
  d.hasAddr = e.hasAddr ∧ d.addr = e.addr ∧ d.len = e.len ∧ d.cnt = e.cnt ∧
  d.status = e.status

/-! ### Safe outcomes -/

/-- The outcome is not a fault. -/
def NoFault (o : Answer) : Prop := ∀ f, o ≠ .fault f

/-- A host input that the block refuses: a reserved select (R62), or a request at the ports of
a row that has none (R61). -/
def refusableInput (i : HostInput) : Prop :=
  i.reset = false ∧
  ((∃ w p, i.op = some (.word w p) ∧ (wordOp w = 0b110#3 ∨ wordOp w = 0b111#3)) ∨
   (∃ ins, i.op = some (.call ins) ∧ ins.format ≠ .combinational))

/-! ### Runs of FEEDs -/

/-- `FEEDS bs` (R74) as a run of the instruction FEED from `s`. -/
def runFeeds : List Byte → State → Answer
  | [], s => .next s
  | b :: bs, s =>
    match exec (.feed b) s with
    | .next t => runFeeds bs t
    | .fault f => .fault f
    | .refused r => .refused r

/-- FEEDing `bs` from `s` completes, with `status` = `PENDING` after every byte but the last;
the state after the last satisfies `P`. -/
def FeedsPendingThen (bs : List Byte) (s : State) (P : State → Prop) : Prop :=
  (∀ k, 0 < k → k < bs.length →
    ∃ u, runFeeds (bs.take k) s = .next u ∧ u.dec.status = .pending) ∧
  ∃ t, runFeeds bs s = .next t ∧ P t

/-- `raw` with bit `k` of byte `j` flipped (R150). -/
def flipBit (raw : List Byte) (j k : Nat) : List Byte :=
  raw.modify j fun b => b ^^^ BitVec.twoPow 8 k

/-- A byte of the raw stream with no part in stuffing (R150). -/
def plainByte (b : Byte) : Prop :=
  b ≠ Config.fend ∧ b ≠ Config.fesc ∧ b ≠ Config.tfend ∧ b ≠ Config.tfesc

end Sys2Proof.Machine
end

