-- ==== Sys2Proof/Certificates/Slice0/Obligations.lean ====
section
/-! DEFINITION. The statements for the provers. Where a statement says what an operation's
result is, the result stands in the output port `out`, which is the model's way of presenting
it (log 2). "Log n" is notes/assumptions/n.md. -/

open Sys2Proof Sys2Proof.Machine

/-! ### Reset, inputs and the step -/

/-- R33, R145: in the machine right after reset, after a hardware reset and after CLEAR, every
decoder register holds its reset value and nothing is known of any entry of `buf`; CLEAR, the
word `0x2xx`, completes and changes nothing else but the output. -/
def Obligations.ResetAndClearLeaveResetValues : Prop :=
  ∀ (data : Byte) (s : State), (∀ p, decodeWord (0b010#3 ++ data) p = .clear data) ∧ ∃ d,
    exec (.clear data) s = .next { s with dec := d, out := .nothing } ∧
    ∀ e, e = d ∨ e = State.reset.dec ∨ e = (hardwareReset s).dec →
      e.st = .waitFend ∧ e.crc = 0x00#8 ∧ e.prevFesc = false ∧ e.cmd = 0x00#8 ∧
      e.hasAddr = false ∧ e.addr = 0x00#7 ∧ e.len = 0#8 ∧ e.cnt = 0#8 ∧
      e.status = .pending ∧ e.cause = .none ∧
      ∀ i, Memory.read e.buf i = none ∧ bufRead e i = Config.bufAny e.bufEpoch i

/-- R200: an asserted reset wins over the operation of the same step, puts every decoder
register at its reset value (in `buf` nothing is listed: `any value`), changes no
configuration, and equals CLEAR. -/
def Obligations.HardwareResetWins : Prop :=
  ∀ (s : State) (op : Option HostOp) (rest : List HostInput) (data : Byte),
    s.inbox = { reset := true, op := op } :: rest →
    step s = .next { s with
      dec := { st := .waitFend, crc := 0x00#8, prevFesc := false, cmd := 0x00#8,
               hasAddr := false, addr := 0x00#7, len := 0#8, cnt := 0#8, buf := [],
               bufEpoch := s.draws + 1, status := .pending, cause := .none }
      inbox := rest, out := .nothing, draws := s.draws + 1 } ∧
    step s = exec (.clear data) { s with inbox := rest, draws := s.draws + 1 }

/-- A step runs the decoded operation: where the first waiting host input asserts no reset and
its operation decodes to `i`, the step is `exec i` on the state with that input taken off the
list and the input number raised (the model's list of host inputs, log 1, log 6). -/
def Obligations.StepRunsDecodedOperation : Prop :=
  ∀ (s : State) (op : HostOp) (rest : List HostInput) (i : Instr),
    s.inbox = { reset := false, op := some op } :: rest → decodeHost op = .ok i →
    i.wf = true ∧ step s = exec i { s with inbox := rest, draws := s.draws + 1 }

/-- The model's choice of log 1: with no host input waiting, or none but an empty one, no
register, configuration or output changes. -/
def Obligations.StepWithoutOperationChangesNothing : Prop :=
  (∀ s : State, s.inbox = [] → step s = .next s) ∧
  ∀ (s : State) (rest : List HostInput), s.inbox = { reset := false, op := none } :: rest →
    step s = .next { s with inbox := rest, draws := s.draws + 1 }

/-- R188, R8: a block is built for a payload length of 90 or 94 and for no other. -/
def Obligations.BlockBuiltOnlyForLegalLength : Prop :=
  ∀ (n : Nat) (r : AmpsRounding),
    (n = 90 → buildBlock n r = .next { State.reset with cfg := ⟨.len90, r⟩ }) ∧
    (n = 94 → buildBlock n r = .next { State.reset with cfg := ⟨.len94, r⟩ }) ∧
    (n ≠ 90 → n ≠ 94 → buildBlock n r = .refused (.badPayloadLen n))

/-- R21, R29, R180: the codes of `st`, `status` and `cause`. -/
def Obligations.RegisterCodes : Prop :=
  [FsmState.waitFend, .waitAddrOrCmd, .waitCmd, .waitNbt, .waitData].map FsmState.code =
      [0#3, 1#3, 2#3, 3#3, 4#3] ∧
  [Status.pending, .complete, .invalid].map Status.code = [0#2, 1#2, 2#2] ∧
  [Cause.none, .escErr, .cmdBit7, .lenTooBig, .crcMismatch, .frameRestart, .encTooLong,
      .telemBadLen, .telemNoFrame].map Cause.code =
    [0#4, 1#4, 2#4, 3#4, 4#4, 5#4, 6#4, 7#4, 8#4]

/-! ### Encodings -/

/-- Operation words written out from R60 to R63 decode to their operations, and three bytes
written out from R64, R65 and R67 to a row each. That a byte without the decoder's state names
the row that fixes most bits, and then the first, is the model's choice (log 11), and so is the
empty payload of the ENCODE word, which has no bits for one (log 17). -/
def Obligations.SampleWordsDecode : Prop :=
  decodeTableWord 16 0b00010100101 = some (.nop 0xA5#8) ∧
  decodeTableWord 16 0b00111000000 = some (.feed 0xC0#8) ∧
  decodeTableWord 16 0b01011111111 = some (.clear 0xFF#8) ∧
  decodeTableWord 16 0b01111111111 = some (.encode 0xFF#8 []) ∧
  decodeTableWord 16 0b10001111111 = some (.read 127#8) ∧
  decodeTableWord 16 0b10100110111 = some (.telem 0x37#8) ∧
  decodeTableWord 16 0b11000000000 = some (.reserved110 0#8) ∧
  decodeTableWord 16 0b11111111111 = some (.reserved111 0xFF#8) ∧
  decodeTableWord 8 0b11000000 = some .feedFend ∧
  decodeTableWord 8 0b10000101 = some (.feedAddr 5#7) ∧
  decodeTableWord 8 0b00000100 = some (.feedCmd0 4#7)

/-- Decode and encode agree on every row: in a state whose registers select the row (for a
FEED arm: the row's condition), the bits of a well-formed instruction decode to it. -/
def Obligations.DecodeEncodeEveryRow : Prop :=
  ∀ (d : Decoder) (i : Instr), i.wf = true → rowApplies d i = true →
    decode d (encode i) = .ok i

/-- Every operation word is the encoding of what it decodes to: no bit is dropped. The payload
port is an operand of ENCODE alone (R60). -/
def Obligations.EncodeDecodeEveryWord : Prop :=
  ∀ (w : OpWord) (p : List Byte),
    ∃ i, decodeHost (.word w p) = .ok i ∧ i.wf = true ∧ i.format = .opWord11 ∧
      encode i = .host (.word w (if wordOp w = 0b011#3 then p else []))

/-- R63: the `data` field of NOP, CLEAR and TELEM is ignored: words that differ only there have
the same effect. -/
def Obligations.DataFieldIgnored : Prop :=
  ∀ (v w : OpWord) (p q : List Byte) (s : State), wordOp v = wordOp w →
    wordOp w = 0b000#3 ∨ wordOp w = 0b010#3 ∨ wordOp w = 0b101#3 →
    exec (decodeWord v p) s = exec (decodeWord w q) s

/-- R62: a word with select `110` or `111` is refused, whatever its other bits. -/
def Obligations.ReservedSelectsRefused : Prop :=
  ∀ (w : OpWord) (p : List Byte) (s : State),
    (wordOp w = 0b110#3 → decodeWord w p = .reserved110 (wordData w) ∧
      exec (decodeWord w p) s = .refused (.reservedSelect 0b110#3)) ∧
    (wordOp w = 0b111#3 → decodeWord w p = .reserved111 (wordData w) ∧
      exec (decodeWord w p) s = .refused (.reservedSelect 0b111#3))

/-! ### CRC-8 (unit U1) -/

/-- R100: CRC8_STEP completes with the accumulator after 8 iterations of the source's loop,
and changes no register. -/
def Obligations.CrcStepIsEightIterations : Prop :=
  ∀ (crc b : Byte) (s : State),
    exec (.crc8Step crc b) s = .next { s with
      out := .byte ((fun x : Byte × Byte =>
        if x.2.getLsbD 0 ≠ x.1.getLsbD 0 then (((x.1 ^^^ 0x18#8) >>> 1) ||| 0x80#8, x.2 >>> 1)
        else ((x.1 >>> 1) &&& 0x7F#8, x.2 >>> 1))^[8] (crc, b)).1 }

/-- R102: CRC8_SEQ completes with the left fold of CRC8_STEP; a fold can be split anywhere. -/
def Obligations.CrcSeqIsLeftFold : Prop :=
  ∀ (init : Byte) (xs ys : List Byte) (s : State),
    exec (.crc8Seq init xs) s = .next { s with out := .byte (xs.foldl crc8Step init) } ∧
    crc8Seq init [] = init ∧
    crc8Seq init (xs ++ ys) = crc8Seq (crc8Seq init xs) ys

/-- R101: the shift-xor form and the table form equal CRC8_STEP on every operand pair. -/
def Obligations.CrcFormsAgree : Prop :=
  ∀ crc b : Byte, crc8ShiftXor crc b = crc8Step crc b ∧ crc8Table crc b = crc8Step crc b

/-- R105 item 1: CRC8_STEP is linear over XOR. -/
def Obligations.CrcStepLinear : Prop :=
  ∀ c₁ c₂ b₁ b₂ : Byte,
    crc8Step (c₁ ^^^ c₂) (b₁ ^^^ b₂) = crc8Step c₁ b₁ ^^^ crc8Step c₂ b₂

/-- R105 item 2, and more: changing one byte of a sequence, in one bit or more, changes its
CRC. -/
def Obligations.CrcDetectsOneChangedByte : Prop :=
  ∀ (init b b' : Byte) (xs ys : List Byte), b ≠ b' →
    crc8Seq init (xs ++ b :: ys) ≠ crc8Seq init (xs ++ b' :: ys)

/-! ### Stuffing (unit U2) -/

/-- R110: STUFF completes with `FESC TFEND` for `FEND`, `FESC TFESC` for `FESC`, and the byte
itself otherwise. -/
def Obligations.StuffByCases : Prop :=
  ∀ (b : Byte) (s : State),
    exec (.stuff b) s = .next { s with
      out := .bytes (if b = 0xC0#8 then [0xDB#8, 0xDC#8] else if b = 0xDB#8 then [0xDB#8, 0xDD#8] else [b]) }

/-- R111: STUFF_SEQ completes with the concatenated stuffed forms, between `len(s)` and
`2·len(s)` bytes. -/
def Obligations.StuffSeqConcatenates : Prop :=
  ∀ (bs : List Byte) (s : State),
    exec (.stuffSeq bs) s = .next { s with out := .bytes (bs.map stuff).flatten } ∧
    bs.length ≤ ((bs.map stuff).flatten).length ∧
    ((bs.map stuff).flatten).length ≤ 2 * bs.length

/-- R112: UNSTUFF_STEP by its cases, for every raw byte but `FEND`; the new `prev_fesc` says
whether the raw byte was `FESC`. -/
def Obligations.UnstuffStepByCases : Prop :=
  ∀ (pf : Bool) (raw : Byte) (s : State), raw ≠ 0xC0#8 →
    exec (.unstuffStep pf raw) s = .next { s with
      out := .unstuffStep (raw == 0xDB#8) (if pf = true then
        if raw = 0xDC#8 then .data 0xC0#8 else if raw = 0xDD#8 then .data 0xDB#8 else .escErr
      else if raw = 0xDB#8 then .skip else .data raw) }

/-- R113: UNSTUFF_SEQ of a sequence without `FEND` completes with the loop of UNSTUFF_STEP
from `prev_fesc` = 0, stopped at the first stuffing error. -/
def Obligations.UnstuffSeqIsLoop : Prop :=
  ∀ (bs : List Byte) (s : State), Config.fend ∉ bs →
    exec (.unstuffSeq bs) s = .next { s with
      out := .unstuffSeq (bs.foldlM (m := Option) (fun (acc : List Byte × Bool) raw =>
        match (unstuffStep acc.2 raw).2 with
        | .escErr => none
        | .skip => some (acc.1, (unstuffStep acc.2 raw).1)
        | .data v => some (acc.1 ++ [v], (unstuffStep acc.2 raw).1)) ([], false)) }

/-- The model's choice of log 13: outside their precondition the unstuffer's two functions
still complete, with a result the spec does not state, and change no register. -/
def Obligations.UnstuffOutsidePreconditionCompletes : Prop :=
  (∀ (pf : Bool) (s : State), ∃ pf' r,
    exec (.unstuffStep pf Config.fend) s = .next { s with out := .unstuffStep pf' r }) ∧
  ∀ (bs : List Byte) (s : State), Config.fend ∈ bs → ∃ r,
    exec (.unstuffSeq bs) s = .next { s with out := .unstuffSeq r }

/-- R114 item 1: unstuffing inverts stuffing. -/
def Obligations.UnstuffInvertsStuff : Prop :=
  ∀ bs : List Byte, unstuffSeq (stuffSeq bs) = some (bs, false)

/-- R114 items 2 to 4: a stuffed sequence holds no `FEND`, every `FESC` in it is followed by
`TFEND` or `TFESC`, and stuffing can be split anywhere. -/
def Obligations.StuffedSequencesWellFormed : Prop :=
  ∀ bs cs : List Byte,
    Config.fend ∉ stuffSeq bs ∧
    (∀ j, (stuffSeq bs)[j]? = some Config.fesc →
      (stuffSeq bs)[j + 1]? = some Config.tfend ∨ (stuffSeq bs)[j + 1]? = some Config.tfesc) ∧
    stuffSeq (bs ++ cs) = stuffSeq bs ++ stuffSeq cs

/-! ### The encoder (unit U3) -/

/-- R120, R123: ENCODE, the word `0x3cc`, completes with the frame for at most 128 payload bytes and any command,
and with `ENC_TOO_LONG` and no bytes above; no register changes. -/
def Obligations.EncodeCompletes : Prop :=
  ∀ (c : Byte) (p : List Byte) (s : State),
    decodeWord (0b011#3 ++ c) p = .encode c p ∧
    (p.length ≤ 128 → exec (.encode c p) s = .next { s with
      out := .bytes ([0xC0#8] ++ stuff c ++ stuff (BitVec.ofNat 8 p.length) ++ stuffSeq p ++
        stuff (crc8Seq 0#8 ([0xC0#8, c, BitVec.ofNat 8 p.length] ++ p))) }) ∧
    (128 < p.length →
      exec (.encode c p) s = .next { s with out := .error .encTooLong (some p.length) })

/-- R121: the length of a frame, and its one `FEND`, which stands first. -/
def Obligations.EncodedFrameLength : Prop :=
  ∀ (c : Byte) (p : List Byte), p.length ≤ 128 →
    (frameOf c p).length =
      1 + (stuff c).length + 1 + (stuffSeq p).length + (stuff (crcTx c p)).length ∧
    4 + p.length ≤ (frameOf c p).length ∧ (frameOf c p).length ≤ 6 + 2 * p.length ∧
    (frameOf c p).head? = some Config.fend ∧ Config.fend ∉ (frameOf c p).tail

/-- R124: the round trip. From ANY decoder state, feeding the frame of a command below `0x80`
and at most 128 payload bytes gives PENDING on every byte but the last and COMPLETE on the
last, with that command and payload and no address. -/
def Obligations.EncodedFrameRoundTrips : Prop :=
  ∀ (c : Byte) (p : List Byte) (s : State), bit7 c = false → p.length ≤ 128 →
    FeedsPendingThen (frameOf c p) s fun t =>
      t.dec.st = .waitFend ∧ t.dec.status = .complete ∧
      t.out = .feed .complete .none (some
        { kind := .complete, hasAddr := false, addr := 0#7, cmd := c,
          len := BitVec.ofNat 8 p.length, payload := p })

/-- R122: the decoder reads an encoded command of `0x80` or more as the address `c & 0x7F`. -/
def Obligations.HighCommandReadAsAddress : Prop :=
  ∀ (c : Byte) (p : List Byte) (s : State), bit7 c = true → p.length ≤ 128 →
    ([Config.fend] ++ stuff c) <+: frameOf c p ∧
    ∃ t, runFeeds ([Config.fend] ++ stuff c) s = .next t ∧ t.dec.st = .waitCmd ∧
      t.dec.hasAddr = true ∧ t.dec.addr = low7 c ∧ t.dec.cmd = 0#8 ∧ t.dec.status = .pending

/-! ### The frame decoder (unit U4)

An arm of FEED is an instruction here, with FEED's common part around it (log 9). -/

/-- R130, R182: FEED of a raw byte is the arm that its dispatch selects, and that arm's
condition holds: in every state every byte reaches one arm. (That an arm is an instruction is
the model's choice, log 9.) -/
def Obligations.FeedRunsSelectedArm : Prop :=
  ∀ (b : Byte) (s : State),
    rowApplies s.dec (selectRaw s.dec b) = true ∧
    exec (.feed b) s = exec (selectRaw s.dec b) s

/-- R143, R144: in every legal state FEED completes, and so do the two command-code bytes (log
10): it presents the `status` and `cause` it has written, and the event record of the
registers exactly when `status` is not `PENDING`. -/
def Obligations.FeedCompletesInLegalStates : Prop :=
  ∀ (b : Byte) (s : State), LegalDecoder s.dec → ∃ t,
    exec (.feed b) s = .next t ∧
    (b = 0x55#8 → exec .cmdTelemetry s = .next t) ∧
    (b = 0xFF#8 → exec .cmdInvalidSentinel s = .next t) ∧
    t.out = .feed t.dec.status t.dec.cause
      (if t.dec.status = .pending then none else some
        { kind := t.dec.status, hasAddr := t.dec.hasAddr, addr := t.dec.addr, cmd := t.dec.cmd,
          len := t.dec.len, payload := payload t.dec })

/-- R131: a raw `FEND`, in every state and whatever `prev_fesc` holds, starts a frame; `buf`
is not written. -/
def Obligations.FendStartsFrame : Prop :=
  ∀ (s : State), ∃ t, exec .feedFend s = .next t ∧ exec (.feed 0xC0#8) s = .next t ∧
    t = { s with
      dec := { s.dec with
        cause := if s.dec.st ≠ .waitFend then .frameRestart else .none
        status := .pending, prevFesc := false, crc := crc8Step 0x00#8 0xC0#8
        cmd := 0x00#8, hasAddr := false, addr := 0#7, len := 0#8, cnt := 0#8
        st := .waitAddrOrCmd }
      out := .feed .pending (if s.dec.st ≠ .waitFend then .frameRestart else .none) none } ∧
    t.dec.crc = 0xCA#8

/-- R132: outside a frame every other raw byte is discarded: `prev_fesc` follows it, `status`
is PENDING and `cause` NONE, and nothing else changes. -/
def Obligations.BytesOutsideFrameDiscarded : Prop :=
  ∀ (b : Byte) (s : State), s.dec.st = .waitFend → b ≠ 0xC0#8 →
    exec (.feedDiscard b) s = exec (.feed b) s ∧
    exec (.feedDiscard b) s = .next { s with
      dec := { s.dec with prevFesc := b == 0xDB#8, status := .pending, cause := .none }
      out := .feed .pending .none none }

/-- R133, R181, R184: in a frame, `FESC` with no escape pending only sets `prev_fesc`; after
`FESC`, a raw byte that completes no escape abandons the frame: `st` to `WAIT_FEND`, `cause`
`ESC_ERR`, `status` PENDING, `prev_fesc` following the byte, no event, and every other register
as it was. -/
def Obligations.EscapeBeginsOrAbandons : Prop :=
  ∀ (s : State), s.dec.st ≠ .waitFend →
    (s.dec.prevFesc = false →
      exec .feedEscBegin s = exec (.feed 0xDB#8) s ∧
      exec .feedEscBegin s = .next { s with
        dec := { s.dec with prevFesc := true, status := .pending, cause := .none }
        out := .feed .pending .none none }) ∧
    (s.dec.prevFesc = true → ∀ b : Byte, b ≠ 0xDC#8 → b ≠ 0xDD#8 → b ≠ 0xC0#8 →
      exec (.feedEscErr b) s = exec (.feed b) s ∧
      exec (.feedEscErr b) s = .next { s with
        dec := { s.dec with
          prevFesc := b == 0xDB#8, status := .pending, cause := .escErr, st := .waitFend }
        out := .feed .pending .escErr none })

/-- R112, R133: in a frame, `TFEND` (`TFESC`) after `FESC` is the unstuffed byte `0xC0`
(`0xDB`), and does what the arm of the state does with that byte; in a legal state it
completes. -/
def Obligations.EscapePairIsDataByte : Prop :=
  ∀ (s : State), s.dec.st ≠ .waitFend → s.dec.prevFesc = true →
    exec .feedEscTfend s = exec (.feed 0xDC#8) s ∧
    exec .feedEscTfesc s = exec (.feed 0xDD#8) s ∧
    exec .feedEscTfend s = exec (selectData s.dec 0xC0#8) s ∧
    exec .feedEscTfesc s = exec (selectData s.dec 0xDB#8) s ∧
    (LegalDecoder s.dec →
      (∃ t, exec .feedEscTfend s = .next t ∧ t.dec.prevFesc = false) ∧
      ∃ t, exec .feedEscTfesc s = .next t ∧ t.dec.prevFesc = false)

/-- R134: the address byte: `addr` and `has_addr` are latched, the 7-bit value is folded, and
the command is next. -/
def Obligations.AddressByteLatched : Prop :=
  ∀ (a : BitVec 7) (s : State), s.dec.st = .waitAddrOrCmd →
    exec (.feedAddr a) s = .next { s with
      dec := { s.dec with
        prevFesc := false, status := .pending, cause := .none
        addr := a, hasAddr := true, crc := crc8Step s.dec.crc (a.zeroExtend 8)
        st := .waitCmd }
      out := .feed .pending .none none }

/-- R135, R136: the command byte, with or without an address before it, is stored and folded,
and the length is next. -/
def Obligations.CommandByteStored : Prop :=
  ∀ (c : BitVec 7) (s : State) (i : Instr),
    (s.dec.st = .waitAddrOrCmd ∧ i = .feedCmd0 c) ∨ (s.dec.st = .waitCmd ∧ i = .feedCmd1 c) →
    exec i s = .next { s with
      dec := { s.dec with
        prevFesc := false, status := .pending, cause := .none
        cmd := c.zeroExtend 8, crc := crc8Step s.dec.crc (c.zeroExtend 8), st := .waitNbt }
      out := .feed .pending .none none }

/-- R138: a length of at most 128 is stored and folded, `cnt` starts at 0, and the payload is
next. -/
def Obligations.LengthByteStored : Prop :=
  ∀ (v : Byte) (s : State), s.dec.st = .waitNbt → v.toNat ≤ 128 →
    exec (.feedLen v) s = .next { s with
      dec := { s.dec with
        prevFesc := false, status := .pending, cause := .none
        len := v, cnt := 0#8, crc := crc8Step s.dec.crc v, st := .waitData }
      out := .feed .pending .none none }

/-- R137, R139, R181, R184: a byte with bit 7 set after an address abandons the frame with
`CMD_BIT7`, and a length above 128 with `LEN_TOO_BIG`: `st` to `WAIT_FEND`, `status` PENDING, no
event, and every other register as it was. -/
def Obligations.MalformedHeaderAbandons : Prop :=
  (∀ (x : BitVec 7) (s : State), s.dec.st = .waitCmd →
    exec (.feedCmdBad x) s = .next { s with
      dec := { s.dec with
        prevFesc := false, status := .pending, cause := .cmdBit7, st := .waitFend }
      out := .feed .pending .cmdBit7 none }) ∧
  ∀ (v : Byte) (s : State), s.dec.st = .waitNbt → 128 < v.toNat →
    exec (.feedLenBad v) s = .next { s with
      dec := { s.dec with
        prevFesc := false, status := .pending, cause := .lenTooBig, st := .waitFend }
      out := .feed .pending .lenTooBig none }

/-- R140: a payload byte goes to entry `cnt`, `cnt` rises by one and the byte is folded; `st`
stays, and no other entry changes. -/
def Obligations.PayloadByteStored : Prop :=
  ∀ (v : Byte) (s : State), s.dec.st = .waitData → s.dec.cnt < s.dec.len →
    s.dec.len ≤ 128#8 → ∃ buf',
    exec (.feedData v) s = .next { s with
      dec := { s.dec with
        prevFesc := false, status := .pending, cause := .none
        buf := buf', cnt := s.dec.cnt + 1#8, crc := crc8Step s.dec.crc v }
      out := .feed .pending .none none } ∧
    Memory.read buf' s.dec.cnt.toNat = some v ∧
    ∀ j, j ≠ s.dec.cnt.toNat → Memory.read buf' j = Memory.read s.dec.buf j

/-- R141, R142: the CRC byte ends the frame: a byte equal to `crc` with `COMPLETE` and the
valid-frame event, any other with `INVALID`, `CRC_MISMATCH` and the invalid-frame event. Every
other register keeps its value, and the event carries the registers and the whole payload. -/
def Obligations.CrcByteEndsFrame : Prop :=
  ∀ (v : Byte) (s : State), s.dec.st = .waitData → s.dec.cnt = s.dec.len →
    s.dec.len ≤ 128#8 →
    (v = s.dec.crc →
      exec (.feedCrcOk v) s = .next { s with
        dec := { s.dec with
          prevFesc := false, status := .complete, cause := .none, st := .waitFend }
        out := .feed .complete .none (some
          { kind := .complete, hasAddr := s.dec.hasAddr, addr := s.dec.addr, cmd := s.dec.cmd,
            len := s.dec.len, payload := (List.range s.dec.len.toNat).map (bufRead s.dec) }) }) ∧
    (v ≠ s.dec.crc →
      exec (.feedCrcBad v) s = .next { s with
        dec := { s.dec with
          prevFesc := false, status := .invalid, cause := .crcMismatch, st := .waitFend }
        out := .feed .invalid .crcMismatch (some
          { kind := .invalid, hasAddr := s.dec.hasAddr, addr := s.dec.addr, cmd := s.dec.cmd,
            len := s.dec.len, payload := (List.range s.dec.len.toNat).map (bufRead s.dec) }) })

/-- R70: at the head of a frame the code `0x55` becomes the command and the code `0xFF` the
address `0x7F`; after an address `0xFF` is no command either. The rows are the FEED of their
byte (log 10). -/
def Obligations.CommandCodesAtFrameHead : Prop :=
  ∀ (s : State), s.dec.prevFesc = false →
    (s.dec.st = .waitAddrOrCmd → (∃ t, exec .cmdTelemetry s = .next t ∧
        t.dec.cmd = 0x55#8 ∧ t.dec.st = .waitNbt ∧ t.dec.hasAddr = s.dec.hasAddr) ∧
      ∃ t, exec .cmdInvalidSentinel s = .next t ∧
        t.dec.cmd = s.dec.cmd ∧ t.dec.hasAddr = true ∧ t.dec.addr = 0x7F#7 ∧
        t.dec.st = .waitCmd) ∧
    (s.dec.st = .waitCmd → (∃ t, exec .cmdTelemetry s = .next t ∧
        t.dec.cmd = 0x55#8 ∧ t.dec.st = .waitNbt) ∧
      ∃ t, exec .cmdInvalidSentinel s = .next t ∧
        t.dec.cmd = s.dec.cmd ∧ t.dec.st = .waitFend ∧ t.dec.cause = .cmdBit7)

/-- R104, R141: in a sound state a FEED gives `COMPLETE` exactly when it is the CRC byte of a
frame whose payload is full and it equals `CRC_RX` over `FEND`, the address if any, the
command, the length and the payload. -/
def Obligations.CompleteIffCrcMatches : Prop :=
  ∀ (b : Byte) (s t : State), SoundDecoder s.dec → exec (.feed b) s = .next t →
    (t.dec.status = .complete ↔
      b ≠ Config.fend ∧ s.dec.st = .waitData ∧ s.dec.cnt = s.dec.len ∧
      (unstuffStep s.dec.prevFesc b).2 = .data (crc8Seq 0x00#8
        ([0xC0#8] ++ (if s.dec.hasAddr then [s.dec.addr.zeroExtend 8] else []) ++
          [s.dec.cmd, s.dec.len] ++ (List.range s.dec.len.toNat).map (bufRead s.dec))))

/-- R149 item 2: resynchronisation. Whatever came before, after a raw `FEND` every register
except `buf` is the same, and every FEED after it presents the same outputs. (`cause` at the
`FEND` itself tells a restart, R131; log 24.) -/
def Obligations.FendResynchronises : Prop :=
  ∀ (bs : List Byte) (s₁ s₂ : State), ∃ t₁ t₂,
    runFeeds (Config.fend :: bs) s₁ = .next t₁ ∧ runFeeds (Config.fend :: bs) s₂ = .next t₂ ∧
    SameButBufAndCause t₁.dec t₂.dec ∧
    (bs ≠ [] → t₁.dec.cause = t₂.dec.cause ∧ t₁.out = t₂.out)

/-- R149 item 3: a frame truncated anywhere, then a complete valid frame, gives exactly one
event, `COMPLETE`, for the second frame. -/
def Obligations.TruncatedFrameThenValidFrame : Prop :=
  ∀ (c₁ c₂ : Byte) (p₁ p₂ : List Byte) (k : Nat) (s : State),
    bit7 c₁ = false → bit7 c₂ = false → p₁.length ≤ 128 → p₂.length ≤ 128 →
    k < (frameOf c₁ p₁).length →
    FeedsPendingThen ((frameOf c₁ p₁).take k ++ frameOf c₂ p₂) s fun t =>
      t.out = .feed .complete .none (some
        { kind := .complete, hasAddr := false, addr := 0#7, cmd := c₂,
          len := BitVec.ofNat 8 p₂.length, payload := p₂ })

/-- R150: a single flipped bit, outside the length byte and the bytes with a part in stuffing,
and not turning the command into an address, gives exactly one INVALID event and no COMPLETE. -/
def Obligations.SingleBitFlipGivesInvalid : Prop :=
  ∀ (c : Byte) (p : List Byte) (s : State) (j k : Nat) (b b' : Byte),
    bit7 c = false → p.length ≤ 128 → 1 ≤ j → j ≠ 2 → k < 8 → (j = 1 → k ≠ 7) →
    (frameOf c p)[j]? = some b → (flipBit (frameOf c p) j k)[j]? = some b' →
    plainByte b → plainByte b' →
    FeedsPendingThen (flipBit (frameOf c p) j k) s fun t => t.dec.status = .invalid

/-! ### The other host operations -/

/-- R146: NOP, the word `0x0xx`, changes no register; `status` and `cause` keep their
values. -/
def Obligations.NopCompletes : Prop :=
  ∀ (data : Byte) (s : State), (∀ p, decodeWord (0b000#3 ++ data) p = .nop data) ∧
    exec (.nop data) s = .next { s with out := .nothing }

/-- R147: READ, the word `0x4ii`, gives entry `i` in the event's window and some byte elsewhere, and changes no
register. -/
def Obligations.ReadByWindow : Prop :=
  ∀ (i : Byte) (s : State), s.dec.len ≤ 128#8 →
    (∀ p, decodeWord (0b100#3 ++ i) p = .read i) ∧
    (s.dec.status ≠ .pending → i < s.dec.len →
      exec (.read i) s = .next { s with out := .byte (bufRead s.dec i.toNat) }) ∧
    (s.dec.status = .pending ∨ s.dec.len ≤ i →
      ∃ v, exec (.read i) s = .next { s with out := .byte v })

/-- R41, R203: in a sound state a READ in the window gives the byte that the frame stored
there, never an open value. -/
def Obligations.ReadGivesStoredByte : Prop :=
  ∀ (i : Byte) (s : State), SoundDecoder s.dec → s.dec.status ≠ .pending → i < s.dec.len →
    ∃ v, Memory.read s.dec.buf i.toNat = some v ∧
      exec (.read i) s = .next { s with out := .byte v }

/-- R47, R54: NOP, READ, TELEM, ENCODE and every combinational function leave the decoder, its
buffer, the configuration and the waiting inputs as they were. -/
def Obligations.OtherOperationsKeepDecoder : Prop :=
  ∀ (i : Instr) (s t : State),
    i.format = .combinational ∨ (∃ x, i = .nop x) ∨ (∃ x, i = .read x) ∨ (∃ x, i = .telem x) ∨
      (∃ c p, i = .encode c p) →
    exec i s = .next t →
    t.dec = s.dec ∧ t.cfg = s.cfg ∧ t.inbox = s.inbox ∧ t.draws = s.draws

/-- The frame of FEED, of every arm and of the command-code bytes: the configuration, the
waiting inputs and the draw numbers stay; the only entry of `buf` that can change is entry
`cnt`, and only in `WAIT_DATA` with `cnt` below `len` (R40, R140). -/
def Obligations.FeedFrame : Prop :=
  ∀ (i : Instr) (s t : State),
    (∃ b, i = .feed b) ∨ i.format = .feedRawByte ∨ i.format = .feedUnstuffedByte ∨
      i.format = .commandCode →
    exec i s = .next t →
    t.cfg = s.cfg ∧ t.inbox = s.inbox ∧ t.draws = s.draws ∧ t.dec.bufEpoch = s.dec.bufEpoch ∧
    (∀ j, j ≠ s.dec.cnt.toNat → bufRead t.dec j = bufRead s.dec j) ∧
    (¬ (s.dec.st = .waitData ∧ s.dec.cnt < s.dec.len) →
      ∀ j, bufRead t.dec j = bufRead s.dec j)

/-! ### Telemetry (unit U5) -/

/-- R160, R182: TELEM, the word `0x5xx`, gives `TELEM_NO_FRAME` unless `status` is `COMPLETE`, and otherwise
decodes `buf[0..len)`; no register changes. -/
def Obligations.TelemDecodesCompletedPayload : Prop :=
  ∀ (data : Byte) (s : State),
    (∀ p, decodeWord (0b101#3 ++ data) p = .telem data) ∧
    (s.dec.status ≠ .complete →
      exec (.telem data) s = .next { s with out := .error .telemNoFrame none }) ∧
    (s.dec.status = .complete → s.dec.len ≤ 128#8 →
      exec (.telem data) s = exec (.telemDecode (payload s.dec)) s ∧
      ∃ o, exec (.telem data) s = .next { s with out := o })

/-- R161 to R166: TelemDecode of a payload of `TELEM_PAYLOAD_LEN` bytes gives the fields at
their offsets, each little-endian, with a trailer in layout 94 only; of any other length,
`TELEM_BAD_LEN` with that length and no sample. The event beside the sample is the model's
choice (log 18); the two's-complement reading is R163's own, from general knowledge (log 19). -/
def Obligations.TelemDecodeByLength : Prop :=
  ∀ (p : List Byte) (s : State),
    (p.length ≠ s.cfg.layout.payloadLen →
      exec (.telemDecode p) s = .next { s with out := .error .telemBadLen (some p.length) }) ∧
    (p.length = s.cfg.layout.payloadLen →
      ∃ smp ev, exec (.telemDecode p) s = .next { s with out := .sample smp ev } ∧
      smp.counter = p.getD 1 0#8 ++ p.getD 0 0#8 ∧
      (∀ k : Fin 40, milliamps smp k =
        (p.getD (3 + 2 * k) 0#8 ++ p.getD (2 + 2 * k) 0#8 : BitVec 16).toInt) ∧
      smp.tempBits = p.getD 85 0#8 ++ p.getD 84 0#8 ++ p.getD 83 0#8 ++ p.getD 82 0#8 ∧
      smp.tstatus = p.getD 89 0#8 ++ p.getD 88 0#8 ++ p.getD 87 0#8 ++ p.getD 86 0#8 ∧
      smp.trailer = (if s.cfg.layout = .len94 then
        some (p.getD 93 0#8 ++ p.getD 92 0#8 ++ p.getD 91 0#8 ++ p.getD 90 0#8) else none))

/-- R170: the section 6 event of a sample: its 40 currents by `toAmps`, its temperature by
`tempF64`, its status word. -/
def Obligations.TelemetryEventProjectsSample : Prop :=
  ∀ (p : List Byte) (s t : State) (smp : Sample) (ev : TelemetryEvent),
    exec (.telemDecode p) s = .next t → t.out = .sample smp ev →
    (∀ k (h : k < 40), exec (.toAmps smp.currentMA[k]) s =
      .next { s with out := .f64 ev.currents[k] }) ∧
    exec (.tempF64 smp.tempBits) s = .next { s with out := .f64 ev.temperature } ∧
    ev.status = smp.tstatus

/-- R167: toAmps completes, under every configuration, with a value that has the named
properties: the sign of `m` and +0.0 for 0, monotone, exact at the multiples of 125. (The
binary64 layout is IEEE-754's, log 19; the configurations are log 8's.) -/
def Obligations.ToAmpsHasNamedProperties : Prop :=
  (∀ (m : BitVec 16) (s : State),
    exec (.toAmps m) s = .next { s with out := .f64 (toAmps s.cfg.rounding m) }) ∧
  ∀ r : AmpsRounding,
    toAmps r 0#16 = 0#64 ∧
    (∀ m : BitVec 16, 0 < m.toInt → 0 < f64Value (toAmps r m)) ∧
    (∀ m : BitVec 16, m.toInt < 0 → f64Value (toAmps r m) < 0) ∧
    (∀ m n : BitVec 16, m.toInt ≤ n.toInt → f64Value (toAmps r m) ≤ f64Value (toAmps r n)) ∧
    (∀ m : BitVec 16, m.toInt % 125 = 0 → f64Value (toAmps r m) = (m.toInt : ℚ) / 1000)

/-- R167: the default `toAmps` is `m / 1000` rounded to nearest: no other finite binary64
value is as near (so no tie arises). (The binary64 layout is IEEE-754's, log 19.) -/
def Obligations.ToAmpsDefaultIsNearest : Prop :=
  ∀ (m : BitVec 16) (s : State), s.cfg.rounding = .nearestEven → ∃ x,
    exec (.toAmps m) s = .next { s with out := .f64 x } ∧ f64Exp x ≠ 2047 ∧
    ∀ y : F64, f64Exp y ≠ 2047 → f64Value y ≠ f64Value x →
      |f64Value x - (m.toInt : ℚ) / 1000| < |f64Value y - (m.toInt : ℚ) / 1000|

/-- R168: tempF64 completes; it widens every finite pattern exactly, keeps the sign (of ±0
too), gives the infinity for an infinity and a NaN for a NaN. (The layouts are IEEE-754's,
log 19; the NaN itself is free, log 5.) -/
def Obligations.TempWidensExactly : Prop :=
  ∀ (t : F32) (s : State), ∃ x,
    exec (.tempF64 t) s = .next { s with out := .f64 x } ∧
    (f32Exp t ≠ 255 → f64Exp x ≠ 2047 ∧ f64Value x = f32Value t ∧ x.msb = t.msb) ∧
    (f32IsInf t = true → f64IsInf x = true ∧ x.msb = t.msb) ∧
    (f32IsNan t = true → f64IsNan x = true)

/-- R169: is_telemetry is 1 exactly when `status` is `COMPLETE` and `cmd` is `0x55`. -/
def Obligations.IsTelemetryClassifies : Prop :=
  ∀ (s : State), ∃ v, exec .isTelemetry s = .next { s with out := .bit v } ∧
    (v = true ↔ s.dec.status = .complete ∧ s.dec.cmd = 0x55#8)

/-! ### The whole machine -/

/-- The invariant's base: the reset state is sound (R33, R34). -/
def Obligations.ResetIsSound : Prop := SoundDecoder State.reset.dec

/-- R34: every step, from any sound state and whatever the host issues, leaves a sound state;
so all items of R34 hold for ever. -/
def Obligations.StepKeepsDecoderSound : Prop :=
  ∀ (s t : State), SoundDecoder s.dec → step s = .next t → SoundDecoder t.dec

/-- No behaviour of the block is a fault: from a sound state no step faults, and a step is
refused only for a reserved select (R62) or a request at ports that a row does not have (log
12). -/
def Obligations.SoundStepNeverFaults : Prop :=
  ∀ (s : State), SoundDecoder s.dec → NoFault (step s) ∧
    ∀ r, step s = .refused r → ∃ i rest, s.inbox = i :: rest ∧ refusableInput i

/-- R31, R200, R205: no operation and no reset changes the configuration. -/
def Obligations.StepKeepsConfiguration : Prop :=
  ∀ (s t : State), step s = .next t → t.cfg = s.cfg
end

