-- ==== Sys2Proof/Laws/State.lean ====
section
/-! SUPPORT. One lemma per field of each update of the decoder's registers and of the state, so
that no proof unfolds a record update. -/

namespace Sys2Proof.Machine

/-! ### What every FEED writes first (R130, R143) -/

@[simp] theorem beginFeed_st (pf : Bool) (d : Decoder) : (beginFeed pf d).st = d.st := rfl
@[simp] theorem beginFeed_crc (pf : Bool) (d : Decoder) : (beginFeed pf d).crc = d.crc := rfl
@[simp] theorem beginFeed_prevFesc (pf : Bool) (d : Decoder) : (beginFeed pf d).prevFesc = pf := rfl
@[simp] theorem beginFeed_cmd (pf : Bool) (d : Decoder) : (beginFeed pf d).cmd = d.cmd := rfl
@[simp] theorem beginFeed_hasAddr (pf : Bool) (d : Decoder) : (beginFeed pf d).hasAddr = d.hasAddr := rfl
@[simp] theorem beginFeed_addr (pf : Bool) (d : Decoder) : (beginFeed pf d).addr = d.addr := rfl
@[simp] theorem beginFeed_len (pf : Bool) (d : Decoder) : (beginFeed pf d).len = d.len := rfl
@[simp] theorem beginFeed_cnt (pf : Bool) (d : Decoder) : (beginFeed pf d).cnt = d.cnt := rfl
@[simp] theorem beginFeed_buf (pf : Bool) (d : Decoder) : (beginFeed pf d).buf = d.buf := rfl
@[simp] theorem beginFeed_bufEpoch (pf : Bool) (d : Decoder) : (beginFeed pf d).bufEpoch = d.bufEpoch := rfl
@[simp] theorem beginFeed_status (pf : Bool) (d : Decoder) : (beginFeed pf d).status = .pending := rfl
@[simp] theorem beginFeed_cause (pf : Bool) (d : Decoder) : (beginFeed pf d).cause = .none := rfl

/-! ### Abandon (R181, R184) -/

@[simp] theorem abandon_st (c : Cause) (d : Decoder) : (abandon c d).st = .waitFend := rfl
@[simp] theorem abandon_crc (c : Cause) (d : Decoder) : (abandon c d).crc = d.crc := rfl
@[simp] theorem abandon_prevFesc (c : Cause) (d : Decoder) : (abandon c d).prevFesc = d.prevFesc := rfl
@[simp] theorem abandon_cmd (c : Cause) (d : Decoder) : (abandon c d).cmd = d.cmd := rfl
@[simp] theorem abandon_hasAddr (c : Cause) (d : Decoder) : (abandon c d).hasAddr = d.hasAddr := rfl
@[simp] theorem abandon_addr (c : Cause) (d : Decoder) : (abandon c d).addr = d.addr := rfl
@[simp] theorem abandon_len (c : Cause) (d : Decoder) : (abandon c d).len = d.len := rfl
@[simp] theorem abandon_cnt (c : Cause) (d : Decoder) : (abandon c d).cnt = d.cnt := rfl
@[simp] theorem abandon_buf (c : Cause) (d : Decoder) : (abandon c d).buf = d.buf := rfl
@[simp] theorem abandon_bufEpoch (c : Cause) (d : Decoder) : (abandon c d).bufEpoch = d.bufEpoch := rfl
@[simp] theorem abandon_status (c : Cause) (d : Decoder) : (abandon c d).status = .pending := rfl
@[simp] theorem abandon_cause (c : Cause) (d : Decoder) : (abandon c d).cause = c := rfl

/-! ### The CRC result (R141, R142, R184) -/

@[simp] theorem endFrame_st (k : Status) (c : Cause) (d : Decoder) : (endFrame k c d).st = .waitFend := rfl
@[simp] theorem endFrame_crc (k : Status) (c : Cause) (d : Decoder) : (endFrame k c d).crc = d.crc := rfl
@[simp] theorem endFrame_prevFesc (k : Status) (c : Cause) (d : Decoder) : (endFrame k c d).prevFesc = d.prevFesc := rfl
@[simp] theorem endFrame_cmd (k : Status) (c : Cause) (d : Decoder) : (endFrame k c d).cmd = d.cmd := rfl
@[simp] theorem endFrame_hasAddr (k : Status) (c : Cause) (d : Decoder) : (endFrame k c d).hasAddr = d.hasAddr := rfl
@[simp] theorem endFrame_addr (k : Status) (c : Cause) (d : Decoder) : (endFrame k c d).addr = d.addr := rfl
@[simp] theorem endFrame_len (k : Status) (c : Cause) (d : Decoder) : (endFrame k c d).len = d.len := rfl
@[simp] theorem endFrame_cnt (k : Status) (c : Cause) (d : Decoder) : (endFrame k c d).cnt = d.cnt := rfl
@[simp] theorem endFrame_buf (k : Status) (c : Cause) (d : Decoder) : (endFrame k c d).buf = d.buf := rfl
@[simp] theorem endFrame_bufEpoch (k : Status) (c : Cause) (d : Decoder) : (endFrame k c d).bufEpoch = d.bufEpoch := rfl
@[simp] theorem endFrame_status (k : Status) (c : Cause) (d : Decoder) : (endFrame k c d).status = k := rfl
@[simp] theorem endFrame_cause (k : Status) (c : Cause) (d : Decoder) : (endFrame k c d).cause = c := rfl

/-! ### `FEED_FEND` (R131) -/

@[simp] theorem armFend_st (d : Decoder) : (armFend d).st = .waitAddrOrCmd := rfl
@[simp] theorem armFend_crc (d : Decoder) : (armFend d).crc = crc8Step Config.crcInit Config.fend := rfl
@[simp] theorem armFend_prevFesc (d : Decoder) : (armFend d).prevFesc = false := rfl
@[simp] theorem armFend_cmd (d : Decoder) : (armFend d).cmd = 0x00#8 := rfl
@[simp] theorem armFend_hasAddr (d : Decoder) : (armFend d).hasAddr = false := rfl
@[simp] theorem armFend_addr (d : Decoder) : (armFend d).addr = 0x00#7 := rfl
@[simp] theorem armFend_len (d : Decoder) : (armFend d).len = 0#8 := rfl
@[simp] theorem armFend_cnt (d : Decoder) : (armFend d).cnt = 0#8 := rfl
@[simp] theorem armFend_buf (d : Decoder) : (armFend d).buf = d.buf := rfl
@[simp] theorem armFend_bufEpoch (d : Decoder) : (armFend d).bufEpoch = d.bufEpoch := rfl
@[simp] theorem armFend_status (d : Decoder) : (armFend d).status = .pending := rfl
@[simp] theorem armFend_cause (d : Decoder) : (armFend d).cause = fendCause d.st := rfl

/-! ### `FEED_ADDR` (R134) -/

@[simp] theorem armAddr_st (a : BitVec 7) (d : Decoder) : (armAddr a d).st = .waitCmd := rfl
@[simp] theorem armAddr_crc (a : BitVec 7) (d : Decoder) : (armAddr a d).crc = crc8Step d.crc (clearBit7 a) := rfl
@[simp] theorem armAddr_prevFesc (a : BitVec 7) (d : Decoder) : (armAddr a d).prevFesc = d.prevFesc := rfl
@[simp] theorem armAddr_cmd (a : BitVec 7) (d : Decoder) : (armAddr a d).cmd = d.cmd := rfl
@[simp] theorem armAddr_hasAddr (a : BitVec 7) (d : Decoder) : (armAddr a d).hasAddr = true := rfl
@[simp] theorem armAddr_addr (a : BitVec 7) (d : Decoder) : (armAddr a d).addr = a := rfl
@[simp] theorem armAddr_len (a : BitVec 7) (d : Decoder) : (armAddr a d).len = d.len := rfl
@[simp] theorem armAddr_cnt (a : BitVec 7) (d : Decoder) : (armAddr a d).cnt = d.cnt := rfl
@[simp] theorem armAddr_buf (a : BitVec 7) (d : Decoder) : (armAddr a d).buf = d.buf := rfl
@[simp] theorem armAddr_bufEpoch (a : BitVec 7) (d : Decoder) : (armAddr a d).bufEpoch = d.bufEpoch := rfl
@[simp] theorem armAddr_status (a : BitVec 7) (d : Decoder) : (armAddr a d).status = d.status := rfl
@[simp] theorem armAddr_cause (a : BitVec 7) (d : Decoder) : (armAddr a d).cause = d.cause := rfl

/-! ### `FEED_CMD0`, `FEED_CMD1` (R135, R136) -/

@[simp] theorem armCmd_st (v : Byte) (d : Decoder) : (armCmd v d).st = .waitNbt := rfl
@[simp] theorem armCmd_crc (v : Byte) (d : Decoder) : (armCmd v d).crc = crc8Step d.crc v := rfl
@[simp] theorem armCmd_prevFesc (v : Byte) (d : Decoder) : (armCmd v d).prevFesc = d.prevFesc := rfl
@[simp] theorem armCmd_cmd (v : Byte) (d : Decoder) : (armCmd v d).cmd = v := rfl
@[simp] theorem armCmd_hasAddr (v : Byte) (d : Decoder) : (armCmd v d).hasAddr = d.hasAddr := rfl
@[simp] theorem armCmd_addr (v : Byte) (d : Decoder) : (armCmd v d).addr = d.addr := rfl
@[simp] theorem armCmd_len (v : Byte) (d : Decoder) : (armCmd v d).len = d.len := rfl
@[simp] theorem armCmd_cnt (v : Byte) (d : Decoder) : (armCmd v d).cnt = d.cnt := rfl
@[simp] theorem armCmd_buf (v : Byte) (d : Decoder) : (armCmd v d).buf = d.buf := rfl
@[simp] theorem armCmd_bufEpoch (v : Byte) (d : Decoder) : (armCmd v d).bufEpoch = d.bufEpoch := rfl
@[simp] theorem armCmd_status (v : Byte) (d : Decoder) : (armCmd v d).status = d.status := rfl
@[simp] theorem armCmd_cause (v : Byte) (d : Decoder) : (armCmd v d).cause = d.cause := rfl

/-! ### `FEED_LEN` (R138) -/

@[simp] theorem armLen_st (v : Byte) (d : Decoder) : (armLen v d).st = .waitData := rfl
@[simp] theorem armLen_crc (v : Byte) (d : Decoder) : (armLen v d).crc = crc8Step d.crc v := rfl
@[simp] theorem armLen_prevFesc (v : Byte) (d : Decoder) : (armLen v d).prevFesc = d.prevFesc := rfl
@[simp] theorem armLen_cmd (v : Byte) (d : Decoder) : (armLen v d).cmd = d.cmd := rfl
@[simp] theorem armLen_hasAddr (v : Byte) (d : Decoder) : (armLen v d).hasAddr = d.hasAddr := rfl
@[simp] theorem armLen_addr (v : Byte) (d : Decoder) : (armLen v d).addr = d.addr := rfl
@[simp] theorem armLen_len (v : Byte) (d : Decoder) : (armLen v d).len = v := rfl
@[simp] theorem armLen_cnt (v : Byte) (d : Decoder) : (armLen v d).cnt = 0#8 := rfl
@[simp] theorem armLen_buf (v : Byte) (d : Decoder) : (armLen v d).buf = d.buf := rfl
@[simp] theorem armLen_bufEpoch (v : Byte) (d : Decoder) : (armLen v d).bufEpoch = d.bufEpoch := rfl
@[simp] theorem armLen_status (v : Byte) (d : Decoder) : (armLen v d).status = d.status := rfl
@[simp] theorem armLen_cause (v : Byte) (d : Decoder) : (armLen v d).cause = d.cause := rfl

/-! ### The reset values (R33) -/

@[simp] theorem Decoder.reset_st (n : Nat) : (Decoder.reset n).st = .waitFend := rfl
@[simp] theorem Decoder.reset_crc (n : Nat) : (Decoder.reset n).crc = 0x00#8 := rfl
@[simp] theorem Decoder.reset_prevFesc (n : Nat) : (Decoder.reset n).prevFesc = false := rfl
@[simp] theorem Decoder.reset_cmd (n : Nat) : (Decoder.reset n).cmd = 0x00#8 := rfl
@[simp] theorem Decoder.reset_hasAddr (n : Nat) : (Decoder.reset n).hasAddr = false := rfl
@[simp] theorem Decoder.reset_addr (n : Nat) : (Decoder.reset n).addr = 0x00#7 := rfl
@[simp] theorem Decoder.reset_len (n : Nat) : (Decoder.reset n).len = 0#8 := rfl
@[simp] theorem Decoder.reset_cnt (n : Nat) : (Decoder.reset n).cnt = 0#8 := rfl
@[simp] theorem Decoder.reset_buf (n : Nat) : (Decoder.reset n).buf = [] := rfl
@[simp] theorem Decoder.reset_bufEpoch (n : Nat) : (Decoder.reset n).bufEpoch = n := rfl
@[simp] theorem Decoder.reset_status (n : Nat) : (Decoder.reset n).status = .pending := rfl
@[simp] theorem Decoder.reset_cause (n : Nat) : (Decoder.reset n).cause = .none := rfl

/-! ### CLEAR, reset and taking an input -/

@[simp] theorem clearDecoder_dec (s : State) : (clearDecoder s).dec = Decoder.reset s.draws := rfl
@[simp] theorem clearDecoder_cfg (s : State) : (clearDecoder s).cfg = s.cfg := rfl
@[simp] theorem clearDecoder_inbox (s : State) : (clearDecoder s).inbox = s.inbox := rfl
@[simp] theorem clearDecoder_out (s : State) : (clearDecoder s).out = .nothing := rfl
@[simp] theorem clearDecoder_draws (s : State) : (clearDecoder s).draws = s.draws := rfl
@[simp] theorem hardwareReset_eq (s : State) : hardwareReset s = clearDecoder s := rfl
@[simp] theorem takeInput_dec (rest : List HostInput) (s : State) :
    (takeInput rest s).dec = s.dec := rfl
@[simp] theorem takeInput_cfg (rest : List HostInput) (s : State) :
    (takeInput rest s).cfg = s.cfg := rfl
@[simp] theorem takeInput_inbox (rest : List HostInput) (s : State) :
    (takeInput rest s).inbox = rest := rfl
@[simp] theorem takeInput_out (rest : List HostInput) (s : State) :
    (takeInput rest s).out = s.out := rfl
@[simp] theorem takeInput_draws (rest : List HostInput) (s : State) :
    (takeInput rest s).draws = s.draws + 1 := rfl

end Sys2Proof.Machine
end

