-- ==== Sys2Proof/Laws/Ops.lean ====
section
/-! SUPPORT. What each shared operation can do, said once: the payload buffer (spec 20_memory
R41), the answers of an operation, the arms of FEED, and the byte helpers. -/

namespace Sys2Proof.Machine

/-! ### The payload buffer -/

@[simp] theorem Memory.read_nil (i : Nat) : Memory.read [] i = none := rfl

/-- A read after a write to the same entry gives the byte written. -/
@[simp] theorem Memory.read_write_same (m : Memory) (i : Nat) (v : Byte) :
    Memory.read (Memory.write m i v) i = some v := by
  induction m with
  | nil => simp [Memory.write, Memory.read]
  | cons c m ih =>
    obtain ⟨j, w⟩ := c
    unfold Memory.write
    split
    · simp [Memory.read]
    · split
      · simp [Memory.read]
      · rename_i h1 h2
        simp [Memory.read, h2, ih]

/-- A write leaves every other entry as it was. -/
theorem Memory.read_write_other (m : Memory) {i j : Nat} (v : Byte) (h : j ≠ i) :
    Memory.read (Memory.write m i v) j = Memory.read m j := by
  induction m with
  | nil => simp [Memory.write, Memory.read, h]
  | cons c m ih =>
    obtain ⟨k, w⟩ := c
    unfold Memory.write
    split
    · simp [Memory.read, h]
    · split
      · rename_i h1 h2
        subst h2
        simp [Memory.read, h]
      · simp [Memory.read, ih]

/-- A write to an existing entry at or above `lo` keeps the rising order from `lo`. -/
theorem Memory.wfFrom_write (m : Memory) {lo i : Nat} (v : Byte) (hlo : lo ≤ i)
    (hi : i < Config.maxPayload) (h : Memory.wfFrom lo m = true) :
    Memory.wfFrom lo (Memory.write m i v) = true := by
  induction m generalizing lo with
  | nil => simp [Memory.write, Memory.wfFrom, hlo, hi]
  | cons c m ih =>
    obtain ⟨k, w⟩ := c
    simp only [Memory.wfFrom, Bool.and_eq_true, decide_eq_true_eq] at h
    obtain ⟨⟨h1, h2⟩, h3⟩ := h
    unfold Memory.write
    split
    · rename_i hik
      simp [Memory.wfFrom, hlo, hi, h2, h3, Nat.succ_le_of_lt hik]
    · split
      · rename_i _ hik
        subst hik
        simp [Memory.wfFrom, hlo, hi, h3]
      · rename_i hlt hne
        have hk : k + 1 ≤ i := by omega
        simp [Memory.wfFrom, h1, h2, ih hk h3]

/-- Every write to an entry that exists keeps the canonical form (log 3). -/
theorem Memory.wf_write {m : Memory} {i : Nat} (v : Byte) (hi : i < Config.maxPayload)
    (h : Memory.wf m = true) : Memory.wf (Memory.write m i v) = true :=
  Memory.wfFrom_write m v (Nat.zero_le i) hi h

/-- The buffer after reset is in canonical form. -/
theorem State.reset_buf_wf : Memory.wf State.reset.dec.buf = true := rfl

/-- `BufWrite` to an entry that exists. -/
theorem bufWrite_ok {i : Nat} (v : Byte) (d : Decoder) (h : i < Config.maxPayload) :
    bufWrite i v d = .ok { d with buf := Memory.write d.buf i v } := by
  simp [bufWrite, h]

/-- `BufWrite` answers registers only for an entry that exists, and then changes `buf` alone. -/
theorem bufWrite_eq_ok {i : Nat} {v : Byte} {d e : Decoder} (h : bufWrite i v d = .ok e) :
    i < Config.maxPayload ∧ e = { d with buf := Memory.write d.buf i v } := by
  unfold bufWrite at h
  split at h
  · rename_i hi
    exact ⟨hi, (Except.ok.inj h).symm⟩
  · cases h

/-- `BufRead` depends on `buf` and its epoch alone. -/
theorem bufRead_congr {d e : Decoder} (hb : d.buf = e.buf) (he : d.bufEpoch = e.bufEpoch)
    (i : Nat) : bufRead d i = bufRead e i := by
  simp [bufRead, hb, he]

/-- An entry written reads as the byte written. -/
theorem bufRead_of_read {d : Decoder} {i : Nat} {v : Byte}
    (h : Memory.read d.buf i = some v) : bufRead d i = v := by
  simp [bufRead, h]

/-- `buf[0..n+1)` is `buf[0..n)` and entry `n`. -/
theorem bufSlice_succ (d : Decoder) (n : Nat) :
    bufSlice d (n + 1) = bufSlice d n ++ [bufRead d n] := by
  simp [bufSlice, List.range_succ]

@[simp] theorem bufSlice_zero (d : Decoder) : bufSlice d 0 = [] := rfl

@[simp] theorem bufSlice_length (d : Decoder) (n : Nat) : (bufSlice d n).length = n := by
  simp [bufSlice]

/-! ### Answers -/

/-- With an existing window, `withPayload` continues with `buf[0..len)`. -/
theorem withPayload_of_le {d : Decoder} (k : List Byte → Answer)
    (h : d.len.toNat ≤ Config.maxPayload) : withPayload d k = k (payload d) := by
  simp [withPayload, h]

/-- `withPayload` answers a next state only through its continuation. -/
theorem withPayload_next {d : Decoder} {k : List Byte → Answer} {t : State}
    (h : withPayload d k = .next t) :
    d.len.toNat ≤ Config.maxPayload ∧ k (payload d) = .next t := by
  unfold withPayload at h
  split at h
  · rename_i hl
    exact ⟨hl, h⟩
  · cases h

/-- An answer changes the output alone. -/
theorem answer_next {o : Output} {s t : State} (h : answer o s = .next t) :
    t = { s with out := o } := by
  unfold answer at h
  injection h with h
  exact h.symm

/-- What a FEED presents, if it answers: the registers given, the configuration and the inputs
as they were, and the output of R143 and R144. -/
theorem presentFeed_next {d : Decoder} {s t : State} (h : presentFeed d s = .next t) :
    t = { s with
      dec := d
      out := .feed d.status d.cause
        (if d.status = .pending then none else some (eventOf d (payload d))) } := by
  unfold presentFeed at h
  split at h
  · rename_i hp
    injection h with h
    rw [← h, if_pos hp]
  · rename_i hp
    obtain ⟨_, h⟩ := withPayload_next h
    injection h with h
    rw [← h, if_neg hp]

/-- A FEED with `status` PENDING always completes. -/
theorem presentFeed_of_pending {d : Decoder} (s : State) (h : d.status = .pending) :
    presentFeed d s = .next { s with dec := d, out := .feed d.status d.cause none } := by
  simp [presentFeed, h]

/-- An arm's result answers a next state only by presenting its registers. -/
theorem finishFeed_next {r : Except Fault Decoder} {s t : State}
    (h : finishFeed r s = .next t) : ∃ d, r = .ok d ∧ presentFeed d s = .next t := by
  unfold finishFeed at h
  split at h
  · rename_i d
    exact ⟨d, rfl, h⟩
  · cases h

/-- A FEED is never refused. -/
theorem finishFeed_not_refused (r : Except Fault Decoder) (s : State) (x : Refusal) :
    finishFeed r s ≠ .refused x := by
  unfold finishFeed presentFeed withPayload
  repeat' split
  all_goals simp

/-- Where the row applies, an arm runs. -/
theorem runArm_of_applies {i : Instr} (r : Decoder → Except Fault Decoder) {s : State}
    (h : rowApplies s.dec i = true) : runArm i r s = finishFeed (r s.dec) s := by
  simp [runArm, h]

/-- An arm answers a next state only where its row applies. -/
theorem runArm_next {i : Instr} {r : Decoder → Except Fault Decoder} {s t : State}
    (h : runArm i r s = .next t) :
    rowApplies s.dec i = true ∧ finishFeed (r s.dec) s = .next t := by
  unfold runArm at h
  split at h
  · rename_i ha
    exact ⟨ha, h⟩
  · cases h

/-! ### The arms of FEED -/

/-- What `FEED_DATA` can do: the entry at `cnt` exists, and `buf`, `cnt` and `crc` alone
change. -/
theorem armData_eq_ok {v : Byte} {d e : Decoder} (h : armData v d = .ok e) :
    d.cnt.toNat < Config.maxPayload ∧
    e = { d with buf := Memory.write d.buf d.cnt.toNat v, cnt := d.cnt + 1#8,
                 crc := crc8Step d.crc v } := by
  unfold armData at h
  split at h
  · rename_i d' hw
    obtain ⟨hi, rfl⟩ := bufWrite_eq_ok hw
    exact ⟨hi, (Except.ok.inj h).symm⟩
  · cases h

/-- `FEED_DATA` at an entry that exists. -/
theorem armData_ok (v : Byte) {d : Decoder} (h : d.cnt.toNat < Config.maxPayload) :
    armData v d = .ok { d with buf := Memory.write d.buf d.cnt.toNat v, cnt := d.cnt + 1#8,
                               crc := crc8Step d.crc v } := by
  simp [armData, bufWrite_ok v d h]

/-- What FEED can do: `FEED_FEND`, a byte discarded, an escape begun, a stuffing error, or the
state's arm on the unstuffed byte (R130). -/
theorem feedByte_cases (b : Byte) (d : Decoder) :
    (b = Config.fend ∧ feedByte b d = .ok (armFend d)) ∨
    (b ≠ Config.fend ∧ d.st = .waitFend ∧
      feedByte b d = .ok (beginFeed (unstuffStep d.prevFesc b).1 d)) ∨
    (b ≠ Config.fend ∧ d.st ≠ .waitFend ∧ (unstuffStep d.prevFesc b).2 = .skip ∧
      feedByte b d = .ok (beginFeed (unstuffStep d.prevFesc b).1 d)) ∨
    (b ≠ Config.fend ∧ d.st ≠ .waitFend ∧ (unstuffStep d.prevFesc b).2 = .escErr ∧
      feedByte b d = .ok (armEscErr (beginFeed (unstuffStep d.prevFesc b).1 d))) ∨
    (b ≠ Config.fend ∧ d.st ≠ .waitFend ∧ ∃ v, (unstuffStep d.prevFesc b).2 = .data v ∧
      feedByte b d = armOfState v (beginFeed (unstuffStep d.prevFesc b).1 d)) := by
  by_cases hb : b = Config.fend
  · exact .inl ⟨hb, by simp [feedByte, hb]⟩
  by_cases hs : d.st = .waitFend
  · exact .inr (.inl ⟨hb, hs, by simp [feedByte, hb, hs]⟩)
  cases hu : (unstuffStep d.prevFesc b).2 with
  | skip => exact .inr (.inr (.inl ⟨hb, hs, rfl, by simp [feedByte, hb, hs, hu]⟩))
  | escErr => exact .inr (.inr (.inr (.inl ⟨hb, hs, rfl, by simp [feedByte, hb, hs, hu]⟩)))
  | data v =>
    exact .inr (.inr (.inr (.inr ⟨hb, hs, v, rfl, by simp [feedByte, hb, hs, hu]⟩)))

/-! ### The unstuffer and the byte helpers -/

/-- The new `prev_fesc` says whether the raw byte was `FESC` (R112, R148). -/
theorem unstuffStep_fst (pf : Bool) (raw : Byte) :
    (unstuffStep pf raw).1 = fescFlag raw := by
  cases pf <;> revert raw <;> decide

/-- The 7-bit split of a header byte loses nothing. -/
theorem withBit7_low7 (v : Byte) (h : bit7 v = true) : withBit7 (low7 v) = v := by
  revert v
  decide

theorem clearBit7_low7 (v : Byte) (h : bit7 v = false) : clearBit7 (low7 v) = v := by
  revert v
  decide

@[simp] theorem bit7_withBit7 (a : BitVec 7) : bit7 (withBit7 a) = true := by
  revert a
  decide

@[simp] theorem bit7_clearBit7 (a : BitVec 7) : bit7 (clearBit7 a) = false := by
  revert a
  decide

@[simp] theorem low7_withBit7 (a : BitVec 7) : low7 (withBit7 a) = a := by
  revert a
  decide

@[simp] theorem low7_clearBit7 (a : BitVec 7) : low7 (clearBit7 a) = a := by
  revert a
  decide

/-- A word is its select and its operand. -/
theorem opWordOf_fields (w : OpWord) : opWordOf (wordOp w) (wordData w) = w := by
  unfold opWordOf wordOp wordData
  ext i hi
  simp only [BitVec.getElem_append, BitVec.getElem_extractLsb']
  split
  · simp_all [BitVec.getLsbD_eq_getElem]
  · rename_i h
    have : 8 + (i - 8) = i := by omega
    simp [this, BitVec.getLsbD_eq_getElem, hi]

@[simp] theorem wordOp_opWordOf (op : BitVec 3) (data : Byte) :
    wordOp (opWordOf op data) = op := by
  revert op data
  decide

@[simp] theorem wordData_opWordOf (op : BitVec 3) (data : Byte) :
    wordData (opWordOf op data) = data := by
  revert op data
  decide

end Sys2Proof.Machine
end

