-- ==== Sys2Proof/Laws/PerInstr.lean ====
section
/-! SUPPORT. Facts about every instruction as syntax, one lemma per constructor. Family
`CodeFormat`: the bits of an instruction are of the kind its row's format names (spec
30_encoding R61). -/

namespace Sys2Proof

/-- The format a code is bits of. -/
def Code.format : Code → RowFormat
  | .host (.word _ _) => .opWord11
  | .host (.call _) => .combinational
  | .rawByte _ => .feedRawByte
  | .dataByte _ => .feedUnstuffedByte
  | .commandCode _ => .commandCode

/-- The instruction's code has its row's format. -/
def Laws.CodeFormat.Statement (i : Instr) : Prop := (encode i).format = i.format

theorem Laws.CodeFormat.nop (data : Byte) : Laws.CodeFormat.Statement (.nop data) := rfl
theorem Laws.CodeFormat.feed (b : Byte) : Laws.CodeFormat.Statement (.feed b) := rfl
theorem Laws.CodeFormat.clear (data : Byte) : Laws.CodeFormat.Statement (.clear data) := rfl
theorem Laws.CodeFormat.encode (c : Byte) (p : List Byte) : Laws.CodeFormat.Statement (.encode c p) := rfl
theorem Laws.CodeFormat.read (i : Byte) : Laws.CodeFormat.Statement (.read i) := rfl
theorem Laws.CodeFormat.telem (data : Byte) : Laws.CodeFormat.Statement (.telem data) := rfl
theorem Laws.CodeFormat.reserved110 (data : Byte) : Laws.CodeFormat.Statement (.reserved110 data) := rfl
theorem Laws.CodeFormat.reserved111 (data : Byte) : Laws.CodeFormat.Statement (.reserved111 data) := rfl
theorem Laws.CodeFormat.feedFend : Laws.CodeFormat.Statement .feedFend := rfl
theorem Laws.CodeFormat.feedDiscard (b : Byte) : Laws.CodeFormat.Statement (.feedDiscard b) := rfl
theorem Laws.CodeFormat.feedEscBegin : Laws.CodeFormat.Statement .feedEscBegin := rfl
theorem Laws.CodeFormat.feedEscTfend : Laws.CodeFormat.Statement .feedEscTfend := rfl
theorem Laws.CodeFormat.feedEscTfesc : Laws.CodeFormat.Statement .feedEscTfesc := rfl
theorem Laws.CodeFormat.feedEscErr (b : Byte) : Laws.CodeFormat.Statement (.feedEscErr b) := rfl
theorem Laws.CodeFormat.feedAddr (a : BitVec 7) : Laws.CodeFormat.Statement (.feedAddr a) := rfl
theorem Laws.CodeFormat.feedCmd0 (c : BitVec 7) : Laws.CodeFormat.Statement (.feedCmd0 c) := rfl
theorem Laws.CodeFormat.feedCmd1 (c : BitVec 7) : Laws.CodeFormat.Statement (.feedCmd1 c) := rfl
theorem Laws.CodeFormat.feedCmdBad (x : BitVec 7) : Laws.CodeFormat.Statement (.feedCmdBad x) := rfl
theorem Laws.CodeFormat.feedLen (v : Byte) : Laws.CodeFormat.Statement (.feedLen v) := rfl
theorem Laws.CodeFormat.feedLenBad (v : Byte) : Laws.CodeFormat.Statement (.feedLenBad v) := rfl
theorem Laws.CodeFormat.feedData (v : Byte) : Laws.CodeFormat.Statement (.feedData v) := rfl
theorem Laws.CodeFormat.feedCrcOk (v : Byte) : Laws.CodeFormat.Statement (.feedCrcOk v) := rfl
theorem Laws.CodeFormat.feedCrcBad (v : Byte) : Laws.CodeFormat.Statement (.feedCrcBad v) := rfl
theorem Laws.CodeFormat.crc8Step (crc : Byte) (b : Byte) : Laws.CodeFormat.Statement (.crc8Step crc b) := rfl
theorem Laws.CodeFormat.crc8Seq (init : Byte) (bs : List Byte) : Laws.CodeFormat.Statement (.crc8Seq init bs) := rfl
theorem Laws.CodeFormat.stuff (b : Byte) : Laws.CodeFormat.Statement (.stuff b) := rfl
theorem Laws.CodeFormat.stuffSeq (bs : List Byte) : Laws.CodeFormat.Statement (.stuffSeq bs) := rfl
theorem Laws.CodeFormat.unstuffStep (pf : Bool) (raw : Byte) : Laws.CodeFormat.Statement (.unstuffStep pf raw) := rfl
theorem Laws.CodeFormat.unstuffSeq (bs : List Byte) : Laws.CodeFormat.Statement (.unstuffSeq bs) := rfl
theorem Laws.CodeFormat.telemDecode (p : List Byte) : Laws.CodeFormat.Statement (.telemDecode p) := rfl
theorem Laws.CodeFormat.toAmps (m : BitVec 16) : Laws.CodeFormat.Statement (.toAmps m) := rfl
theorem Laws.CodeFormat.tempF64 (t : F32) : Laws.CodeFormat.Statement (.tempF64 t) := rfl
theorem Laws.CodeFormat.isTelemetry : Laws.CodeFormat.Statement .isTelemetry := rfl
theorem Laws.CodeFormat.cmdTelemetry : Laws.CodeFormat.Statement .cmdTelemetry := rfl
theorem Laws.CodeFormat.cmdInvalidSentinel : Laws.CodeFormat.Statement .cmdInvalidSentinel := rfl

end Sys2Proof
end

