-- ==== Sys2Proof/Tests/Slice0.lean ====
section
/-! SUPPORT. Tests. Expected values are from spec/95_test_vectors.md (named in each comment) or
written out by hand from the encodings of spec/30_encoding.md, never from the model. -/

namespace Sys2Proof.Tests

open Sys2Proof Sys2Proof.Machine

/-! ### Helpers -/

/-- The decoder of a next state. -/
def decOf : Answer → Option Decoder
  | .next t => some t.dec
  | _ => none

/-- The output of a next state. -/
def outOf : Answer → Option Output
  | .next t => some t.out
  | _ => none

/-- Reset, with these decoder registers. -/
def withDec (d : Decoder) : State := { State.reset with dec := d }

/-- Reset, with this `st`. -/
def inState (st : FsmState) : State := withDec { Decoder.reset 0 with st := st }

/-- In a frame with an escape pending. -/
def escaped (st : FsmState) : State :=
  withDec { Decoder.reset 0 with st := st, prevFesc := true }

/-- P1's decoder before its third payload byte: `cnt` 2 of 4, `crc` B2. -/
def midFrame : State :=
  withDec { Decoder.reset 0 with
    st := .waitData, crc := 0xB2#8, cmd := 0x04#8, len := 4#8, cnt := 2#8,
    buf := [(0, 0x00#8), (1, 0x00#8)] }

/-- V-DEC-9's decoder before its CRC byte: one payload byte 00, `crc` 63. -/
def beforeCrc : State :=
  withDec { Decoder.reset 0 with
    st := .waitData, crc := 0x63#8, cmd := 0x04#8, len := 1#8, cnt := 1#8,
    buf := [(0, 0x00#8)] }

/-- The decoder right after the COMPLETE of P4: one payload byte 00. -/
def completed : State :=
  withDec { Decoder.reset 0 with
    crc := 0x63#8, cmd := 0x04#8, len := 1#8, cnt := 1#8, buf := [(0, 0x00#8)],
    status := .complete }

/-- The payload of S2: counter 1, forty currents of 500, 23.5 degrees, status 0. -/
def payloadS2 : List Byte :=
  [0x01#8, 0x00#8] ++ (List.replicate 40 [0xF4#8, 0x01#8]).flatten ++
    [0x00#8, 0x00#8, 0xBC#8, 0x41#8] ++ [0#8, 0#8, 0#8, 0#8]

/-- A block with this configuration. -/
def withLayout (l : TelemLayout) : State :=
  { State.reset with cfg := { layout := l, rounding := .nearestEven } }

/-! ### WellFormed: each check refuses an ill-formed term -/

theorem test_wf_discard_fend : (Instr.feedDiscard 0xC0#8).wf = false := by decide
theorem test_wf_escErr_fend : (Instr.feedEscErr 0xC0#8).wf = false := by decide
theorem test_wf_escErr_tfend : (Instr.feedEscErr 0xDC#8).wf = false := by decide
theorem test_wf_escErr_tfesc : (Instr.feedEscErr 0xDD#8).wf = false := by decide
theorem test_wf_len_129 : (Instr.feedLen 0x81#8).wf = false := by decide
theorem test_wf_lenBad_128 : (Instr.feedLenBad 0x80#8).wf = false := by decide
theorem test_wf_call_nop : (HostOp.call (.nop 0#8)).wf = false := by decide

/-! ### Decode: words and bytes written out from R60, R61, R65 and the opcode table -/

/-- 000 10100101. -/
theorem test_decode_nop : decodeTableWord 16 0b00010100101 = some (.nop 0xA5#8) := by decide
/-- V-OP-1. -/
theorem test_decode_feed : decodeTableWord 16 0x1C0 = some (.feed 0xC0#8) := by decide
/-- V-OP-7. -/
theorem test_decode_clear : decodeTableWord 16 0x2FF = some (.clear 0xFF#8) := by decide
/-- V-OP-3. -/
theorem test_decode_encode :
    decodeHost (.word 0x3FF#11 [1#8]) = .ok (.encode 0xFF#8 [1#8]) := by rfl
/-- V-OP-4. -/
theorem test_decode_read : decodeTableWord 16 0x47F = some (.read 127#8) := by decide
/-- V-OP-8. -/
theorem test_decode_telem : decodeTableWord 16 0x537 = some (.telem 0x37#8) := by decide
/-- V-OP-9. -/
theorem test_decode_reserved110 : decodeTableWord 16 0x600 = some (.reserved110 0#8) := by
  decide
/-- V-OP-9. -/
theorem test_decode_reserved111 : decodeTableWord 16 0x7FF = some (.reserved111 0xFF#8) := by
  decide
theorem test_decode_no_wider_word : decodeTableWord 16 0x800 = none := by decide
/-- 11000000, in every state. -/
theorem test_decode_feedFend :
    decode midFrame.dec (.rawByte 0b11000000#8) = .ok .feedFend := by rfl
/-- Any other byte in WAIT_FEND. -/
theorem test_decode_feedDiscard :
    decode (inState .waitFend).dec (.rawByte 0b11011100#8) = .ok (.feedDiscard 0xDC#8) := by rfl
/-- 11011011 in a frame. -/
theorem test_decode_feedEscBegin :
    decode (inState .waitNbt).dec (.rawByte 0b11011011#8) = .ok .feedEscBegin := by rfl
/-- 11011100 after FESC. -/
theorem test_decode_feedEscTfend :
    decode (escaped .waitNbt).dec (.rawByte 0b11011100#8) = .ok .feedEscTfend := by rfl
/-- 11011101 after FESC. -/
theorem test_decode_feedEscTfesc :
    decode (escaped .waitNbt).dec (.rawByte 0b11011101#8) = .ok .feedEscTfesc := by rfl
/-- 00000001 after FESC. -/
theorem test_decode_feedEscErr :
    decode (escaped .waitNbt).dec (.rawByte 0b00000001#8) = .ok (.feedEscErr 1#8) := by rfl
/-- 1 0000101 after FEND: address 5. -/
theorem test_decode_feedAddr :
    decode (inState .waitAddrOrCmd).dec (.dataByte 0b10000101#8) = .ok (.feedAddr 5#7) := by rfl
/-- 0 0000100 after FEND: command 4. -/
theorem test_decode_feedCmd0 :
    decode (inState .waitAddrOrCmd).dec (.dataByte 0b00000100#8) = .ok (.feedCmd0 4#7) := by rfl
/-- 0 0010001 after an address: command 0x11. -/
theorem test_decode_feedCmd1 :
    decode (inState .waitCmd).dec (.dataByte 0b00010001#8) = .ok (.feedCmd1 0x11#7) := by rfl
/-- 1 0000010 after an address. -/
theorem test_decode_feedCmdBad :
    decode (inState .waitCmd).dec (.dataByte 0b10000010#8) = .ok (.feedCmdBad 2#7) := by rfl
/-- 128, the largest length. -/
theorem test_decode_feedLen :
    decode (inState .waitNbt).dec (.dataByte 0b10000000#8) = .ok (.feedLen 128#8) := by rfl
/-- 129, the smallest length rejected. -/
theorem test_decode_feedLenBad :
    decode (inState .waitNbt).dec (.dataByte 0b10000001#8) = .ok (.feedLenBad 129#8) := by rfl
theorem test_decode_feedData :
    decode midFrame.dec (.dataByte 0x48#8) = .ok (.feedData 0x48#8) := by rfl
theorem test_decode_feedCrcOk :
    decode beforeCrc.dec (.dataByte 0x63#8) = .ok (.feedCrcOk 0x63#8) := by rfl
theorem test_decode_feedCrcBad :
    decode beforeCrc.dec (.dataByte 0x64#8) = .ok (.feedCrcBad 0x64#8) := by rfl
/-- The combinational rows have no word: each is requested at its own ports, and encodes to
that request. -/
theorem test_decode_combinational :
    ([.crc8Step 1#8 2#8, .crc8Seq 0#8 [1#8], .stuff 1#8, .stuffSeq [1#8], .unstuffStep true 1#8,
      .unstuffSeq [1#8], .telemDecode [], .toAmps 500#16, .tempF64 1#32, .isTelemetry] :
      List Instr).all (fun i => encode i == .host (.call i) &&
        (decodeHost (.call i)).toOption == some i) = true := by decide
theorem test_decode_call_refused :
    decodeHost (.call (.feed 1#8)) = .error .notCombinational := by rfl
/-- R70: the two named command codes, and no third. -/
theorem test_decode_commands :
    decodeCommand 0x55#8 = .ok .cmdTelemetry ∧ decodeCommand 0xFF#8 = .ok .cmdInvalidSentinel ∧
    decodeCommand 0x04#8 = .error .unnamedCommand := ⟨rfl, rfl, rfl⟩
theorem test_decode_byte_rows :
    decodeTableWord 8 0xC0 = some .feedFend ∧ decodeTableWord 8 0xDB = some .feedEscBegin ∧
    decodeTableWord 8 0xDC = some .feedEscTfend ∧ decodeTableWord 8 0xDD = some .feedEscTfesc ∧
    decodeTableWord 8 0x55 = some .cmdTelemetry ∧
    decodeTableWord 8 0xFF = some .cmdInvalidSentinel ∧
    decodeTableWord 8 0x80 = some (.feedAddr 0#7) ∧
    decodeTableWord 8 0x00 = some (.feedCmd0 0#7) := by decide

/-! ### The step takes what `withFetchWord` places -/

/-- V-DEC-1. -/
theorem test_step_feed_fend :
    (decOf (step (State.reset.withFetchWord 16 0x1C0))).map (fun d => (d.st, d.crc, d.cause)) =
      some (.waitAddrOrCmd, 0xCA#8, .none) := by decide
/-- The byte row DB is run as FEED DB inside a frame. -/
theorem test_step_byte_row :
    (decOf (step (State.reset.withFetchWord 8 0xDB))).map (fun d => (d.st, d.prevFesc)) =
      some (.waitAddrOrCmd, true) := by decide
/-- R200: reset beside an operation wins. -/
theorem test_step_reset_wins :
    (decOf (step { beforeCrc with
      inbox := [{ reset := true, op := some (.word 0x163#11 []) }] })).map
      (fun d => (d.crc, d.len, d.status)) = some (0#8, 0#8, .pending) := by decide
theorem test_step_reserved :
    step (State.reset.withFetchWord 16 0x600) = .refused (.reservedSelect 0b110#3) := by rfl

/-! ### CRC-8 -/

/-- V-CRC-1. -/
theorem test_crc8Step : outOf (exec (.crc8Step 0x00#8 0xC0#8) State.reset) =
    some (.byte 0xCA#8) := by decide
/-- V-CRC-7. -/
theorem test_crc8Step_mixed : outOf (exec (.crc8Step 0xCA#8 0x04#8) State.reset) =
    some (.byte 0xD5#8) := by decide
/-- V-CRC-8. -/
theorem test_crc8Seq : outOf (exec (.crc8Seq 0#8 [0xC0#8, 0x04#8]) State.reset) =
    some (.byte 0xD5#8) := by decide +kernel
/-- V-CRC-12. -/
theorem test_crc8Seq_check : crc8Seq 0#8
    [0x31#8, 0x32#8, 0x33#8, 0x34#8, 0x35#8, 0x36#8, 0x37#8, 0x38#8, 0x39#8] = 0xA1#8 := by
  decide +kernel
/-- V-CRC-5 by the table, V-CRC-6e by the shift-xor form. -/
theorem test_crc_forms : crc8Table 0#8 0xFF#8 = 0x35#8 ∧ crc8ShiftXor 0x8C#8 0#8 = 0x2F#8 := by
  decide

/-! ### Stuffing -/

/-- V-STF-1, V-STF-2. -/
theorem test_stuff : outOf (exec (.stuff 0xC0#8) State.reset) = some (.bytes [0xDB#8, 0xDC#8]) ∧
    outOf (exec (.stuff 0xDB#8) State.reset) = some (.bytes [0xDB#8, 0xDD#8]) := by decide
/-- V-STF-4. -/
theorem test_stuffSeq : outOf (exec (.stuffSeq [0xC0#8, 0xDB#8, 0xDC#8, 0xDD#8]) State.reset) =
    some (.bytes [0xDB#8, 0xDC#8, 0xDB#8, 0xDD#8, 0xDC#8, 0xDD#8]) := by decide
/-- V-STF-7. -/
theorem test_unstuffStep : outOf (exec (.unstuffStep true 0xDD#8) State.reset) =
    some (.unstuffStep false (.data 0xDB#8)) := by decide
/-- V-STF-10. -/
theorem test_unstuffStep_err : outOf (exec (.unstuffStep true 0xDB#8) State.reset) =
    some (.unstuffStep true .escErr) := by decide
/-- V-STF-12. -/
theorem test_unstuffSeq : outOf (exec (.unstuffSeq [0xDB#8, 0xDC#8, 0x05#8]) State.reset) =
    some (.unstuffSeq (some ([0xC0#8, 0x05#8], false))) := by decide
/-- V-STF-14. -/
theorem test_unstuffSeq_err : outOf (exec (.unstuffSeq [0xDB#8, 0x00#8]) State.reset) =
    some (.unstuffSeq none) := by decide

/-! ### Encoder -/

/-- V-ENC-7. -/
theorem test_encode :
    outOf (exec (.encode 0x7F#8 [0xC0#8, 0xDB#8, 0xDC#8, 0xDD#8]) State.reset) =
    some (.bytes [0xC0#8, 0x7F#8, 0x04#8, 0xDB#8, 0xDC#8, 0xDB#8, 0xDD#8, 0xDC#8, 0xDD#8,
      0xAD#8]) := by decide +kernel
/-- V-ENC-4: an escaped CRC. -/
theorem test_encode_crc_escaped : frameOf 0x55#8 [] =
    [0xC0#8, 0x55#8, 0x00#8, 0xDB#8, 0xDD#8] := by decide +kernel
/-- V-ENC-12. -/
theorem test_encode_too_long : outOf (exec (.encode 4#8 (List.replicate 129 0#8)) State.reset) =
    some (.error .encTooLong (some 129)) := by decide +kernel

/-! ### Decoder -/

/-- P2: a FEND inside a frame. -/
theorem test_feedFend_restart :
    (decOf (exec .feedFend midFrame)).map (fun d => (d.st, d.crc, d.cmd, d.len, d.cnt, d.cause)) =
      some (.waitAddrOrCmd, 0xCA#8, 0#8, 0#8, 0#8, .frameRestart) := by decide
/-- P6: a stray FESC outside a frame. -/
theorem test_feedDiscard :
    (decOf (exec (.feedDiscard 0xDB#8) (inState .waitFend))).map
      (fun d => (d.st, d.prevFesc, d.cause)) = some (.waitFend, true, .none) := by decide
/-- V-DEC-10: FESC FESC. -/
theorem test_feedEscErr :
    (decOf (exec (.feedEscErr 0xDB#8) (escaped .waitData))).map
      (fun d => (d.st, d.prevFesc, d.cause)) = some (.waitFend, true, .escErr) := by decide
theorem test_feedEscBegin :
    (decOf (exec .feedEscBegin midFrame)).map (fun d => (d.st, d.prevFesc, d.crc)) =
      some (.waitData, true, 0xB2#8) := by decide
/-- V-DEC-4: an escaped address. -/
theorem test_feedEscTfend :
    (decOf (exec .feedEscTfend (withDec { Decoder.reset 0 with
      st := .waitAddrOrCmd, crc := 0xCA#8, prevFesc := true }))).map
      (fun d => (d.st, d.crc, d.hasAddr, d.addr)) = some (.waitCmd, 0xF2#8, true, 0x40#7) := by
  decide
/-- P3: the second payload byte, escaped DB. -/
theorem test_feedEscTfesc :
    (decOf (exec .feedEscTfesc (withDec { Decoder.reset 0 with
      st := .waitData, crc := 0x19#8, len := 2#8, cnt := 1#8, buf := [(0, 0xC0#8)],
      prevFesc := true }))).map (fun d => (d.cnt, d.crc, d.buf, d.prevFesc)) =
      some (2#8, 0x76#8, [(0, 0xC0#8), (1, 0xDB#8)], false) := by decide
/-- P3. -/
theorem test_feedAddr :
    (decOf (exec (.feedAddr 5#7) (withDec { Decoder.reset 0 with
      st := .waitAddrOrCmd, crc := 0xCA#8 }))).map (fun d => (d.st, d.addr, d.crc)) =
      some (.waitCmd, 5#7, 0x8B#8) := by decide
/-- P1. -/
theorem test_feedCmd0 :
    (decOf (exec (.feedCmd0 4#7) (withDec { Decoder.reset 0 with
      st := .waitAddrOrCmd, crc := 0xCA#8 }))).map (fun d => (d.st, d.cmd, d.crc)) =
      some (.waitNbt, 4#8, 0xD5#8) := by decide
/-- P3. -/
theorem test_feedCmd1 :
    (decOf (exec (.feedCmd1 0x11#7) (withDec { Decoder.reset 0 with
      st := .waitCmd, crc := 0x8B#8 }))).map (fun d => (d.st, d.cmd, d.crc)) =
      some (.waitNbt, 0x11#8, 0x6F#8) := by decide
/-- V-DEC-6. -/
theorem test_feedCmdBad :
    (decOf (exec (.feedCmdBad 2#7) (withDec { Decoder.reset 0 with
      st := .waitCmd, crc := 0xEA#8, hasAddr := true, addr := 1#7 }))).map
      (fun d => (d.st, d.cause, d.crc, d.cmd)) = some (.waitFend, .cmdBit7, 0xEA#8, 0#8) := by
  decide
/-- V-DEC-8. -/
theorem test_feedLen :
    (decOf (exec (.feedLen 0x80#8) (withDec { Decoder.reset 0 with
      st := .waitNbt, crc := 0xD5#8, cmd := 4#8 }))).map (fun d => (d.st, d.len, d.cnt, d.crc)) =
      some (.waitData, 128#8, 0#8, 0xE4#8) := by decide
/-- V-DEC-7. -/
theorem test_feedLenBad :
    (decOf (exec (.feedLenBad 0x81#8) (withDec { Decoder.reset 0 with
      st := .waitNbt, crc := 0xD5#8, cmd := 4#8 }))).map (fun d => (d.st, d.cause, d.crc, d.len)) =
      some (.waitFend, .lenTooBig, 0xD5#8, 0#8) := by decide
/-- P1: the third payload byte. -/
theorem test_feedData :
    (decOf (exec (.feedData 0x48#8) midFrame)).map (fun d => (d.cnt, d.crc, d.buf)) =
      some (3#8, 0x0A#8, [(0, 0x00#8), (1, 0x00#8), (2, 0x48#8)]) := by decide
/-- P4. -/
theorem test_feedCrcOk :
    outOf (exec (.feedCrcOk 0x63#8) beforeCrc) = some (.feed .complete .none (some
      { kind := .complete, hasAddr := false, addr := 0#7, cmd := 4#8, len := 1#8,
        payload := [0#8] })) := by decide
/-- V-DEC-9. -/
theorem test_feedCrcBad :
    outOf (exec (.feedCrcBad 0x64#8) beforeCrc) = some (.feed .invalid .crcMismatch (some
      { kind := .invalid, hasAddr := false, addr := 0#7, cmd := 4#8, len := 1#8,
        payload := [0#8] })) := by decide
/-- FEED takes the arm of the state. -/
theorem test_feed_crc : exec (.feed 0x63#8) beforeCrc = exec (.feedCrcOk 0x63#8) beforeCrc := by
  rfl
/-- An arm out of its state is no operation (log 9). -/
theorem test_arm_not_selected : exec (.feedLen 1#8) beforeCrc = .refused .armNotSelected := by
  rfl
/-- R70: 0x55 at the head of a frame. -/
theorem test_cmdTelemetry :
    (decOf (exec .cmdTelemetry (inState .waitAddrOrCmd))).map (fun d => (d.st, d.cmd)) =
      some (.waitNbt, 0x55#8) := by decide
/-- V-DEC-16: 0xFF is read as address 7F. -/
theorem test_cmdInvalidSentinel :
    (decOf (exec .cmdInvalidSentinel (withDec { Decoder.reset 0 with
      st := .waitAddrOrCmd, crc := 0xCA#8 }))).map (fun d => (d.st, d.addr, d.crc)) =
      some (.waitCmd, 0x7F#7, 0x0D#8) := by decide

/-! ### The other host operations -/

/-- V-DEC-15. -/
theorem test_nop : decOf (exec (.nop 0xA5#8) completed) = some completed.dec := by decide
/-- V-DEC-14. -/
theorem test_clear :
    (decOf (exec (.clear 0#8) midFrame)).map (fun d => (d.st, d.crc, d.cmd, d.status, d.cause)) =
      some (.waitFend, 0#8, 0#8, .pending, .none) := by decide
/-- P4: READ 0. -/
theorem test_read : outOf (exec (.read 0#8) completed) = some (.byte 0#8) := by decide
/-- P4: READ beyond `len` is no fixed value. -/
theorem test_read_outside :
    outOf (exec (.read 1#8) completed) = some (.byte (Config.readAny 0 1#8)) := by rfl

/-! ### Telemetry -/

/-- P6: TELEM with no frame. -/
theorem test_telem_no_frame :
    outOf (exec (.telem 0#8) State.reset) = some (.error .telemNoFrame none) := by decide
/-- V-TEL-2, V-TEL-5. -/
theorem test_telemDecode_bad_len :
    outOf (exec (.telemDecode payloadS2) (withLayout .len94)) =
      some (.error .telemBadLen (some 90)) ∧
    outOf (exec (.telemDecode []) (withLayout .len90)) =
      some (.error .telemBadLen (some 0)) := ⟨rfl, rfl⟩
/-- V-TEL-1. -/
theorem test_telemDecode :
    ((telemDecode .len90 payloadS2).map fun x =>
      (x.counter, x.currentMA.toList, x.tempBits, x.tstatus, x.trailer)) =
      some (1#16, List.replicate 40 500#16, 0x41BC0000#32, 0#32, none) := by decide +kernel
/-- R163: FE0C is -500. -/
theorem test_sext16 : sext16 (fieldLE [0x0C#8, 0xFE#8] 0 2) = -500 := by decide
/-- V-TEL-3: the trailer. -/
theorem test_telemDecode_trailer :
    (telemDecode .len94 (payloadS2 ++ [0x11#8, 0x22#8, 0x33#8, 0x44#8])).map (·.trailer) =
      some (some 0x44332211#32) := by decide +kernel
/-- The table of 95, section 2.6. -/
theorem test_toAmps : (outOf (exec (.toAmps 3#16) State.reset) =
    some (.f64 0x3F689374BC6A7EFA#64)) := by decide +kernel
/-- The same table: the most negative value. -/
theorem test_toAmps_min : (outOf (exec (.toAmps 0x8000#16) State.reset) =
    some (.f64 0xC040624DD2F1A9FC#64)) := by decide +kernel
/-- The table of 95, section 2.6: a subnormal and a normal number. -/
theorem test_tempF64 : outOf (exec (.tempF64 0x00000001#32) State.reset) =
      some (.f64 0x36A0000000000000#64) ∧
    outOf (exec (.tempF64 0x41BC0000#32) State.reset) =
      some (.f64 0x4037800000000000#64) := by decide +kernel
/-- The same table: negative infinity. -/
theorem test_tempF64_inf : outOf (exec (.tempF64 0xFF800000#32) State.reset) =
    some (.f64 0xFFF0000000000000#64) := by decide +kernel
/-- V-TEL-8, after V-DEC-12 and after V-DEC-4. -/
theorem test_isTelemetry :
    outOf (exec .isTelemetry (withDec { completed.dec with cmd := 0x55#8 })) =
      some (.bit true) ∧
    outOf (exec .isTelemetry completed) = some (.bit false) := by decide

/-! ### Host programs -/

/-- R74: READALL of a frame with one payload byte is READ 0. -/
theorem test_readAll : readAll completed.dec =
    [{ reset := false, op := some (.word 0x400#11 []) }] := by decide
/-- V-ENC-3 as LOOPBACK: word 300, then FEEDS. -/
theorem test_loopback : (loopback 0#8 []).map (·.op) =
    [some (.word 0x300#11 []), some (.word 0x1C0#11 []), some (.word 0x100#11 []),
      some (.word 0x100#11 []), some (.word 0x153#11 [])] := by decide +kernel

/-! ### Witnesses: states and operands that meet each statement's hypotheses -/

/-- A host input waiting. -/
def waiting (i : HostInput) : State := { State.reset with inbox := [i] }

theorem witness_HardwareResetWins :
    (waiting { reset := true, op := some (.word 0x163#11 []) }).inbox =
      { reset := true, op := some (.word 0x163#11 []) } :: [] := rfl
theorem witness_StepRunsDecodedOperation :
    (waiting (issueFeed 0xC0#8)).inbox =
      { reset := false, op := some (.word 0x1C0#11 []) } :: [] ∧
    decodeHost (.word 0x1C0#11 []) = .ok (.feed 0xC0#8) := ⟨rfl, rfl⟩
theorem witness_StepWithoutOperationChangesNothing :
    State.reset.inbox = [] ∧
    (waiting { reset := false, op := none }).inbox = { reset := false, op := none } :: [] :=
  ⟨rfl, rfl⟩
theorem witness_DecodeEncodeEveryRow :
    (Instr.feedLen 128#8).wf = true ∧
    rowApplies (inState .waitNbt).dec (.feedLen 128#8) = true := by decide
theorem witness_DataFieldIgnored :
    wordOp 0x2FF#11 = wordOp 0x200#11 ∧ wordOp 0x200#11 = 0b010#3 := by decide
theorem witness_ReservedSelectsRefused :
    wordOp 0x600#11 = 0b110#3 ∧ wordOp 0x7FF#11 = 0b111#3 := by decide
theorem witness_BlockBuiltOnlyForLegalLength : (91 : Nat) ≠ 90 ∧ (91 : Nat) ≠ 94 := by decide
theorem witness_CrcDetectsOneChangedByte : (0x00#8 : Byte) ≠ 0x80#8 := by decide
theorem witness_UnstuffStepByCases : (0xDB#8 : Byte) ≠ 0xC0#8 := by decide
theorem witness_UnstuffSeqIsLoop : Config.fend ∉ [0xDB#8, 0xDC#8] := by decide
theorem witness_UnstuffOutsidePreconditionCompletes : Config.fend ∈ [1#8, 0xC0#8] := by decide
theorem witness_EncodeCompletes :
    (List.replicate 128 0#8).length ≤ 128 ∧ 128 < (List.replicate 129 0#8).length := by simp
theorem witness_EncodedFrameLength : (List.replicate 128 0xC0#8).length ≤ 128 := by simp
theorem witness_EncodedFrameRoundTrips :
    bit7 0x7F#8 = false ∧ (List.replicate 128 0xDB#8).length ≤ 128 := by
  exact ⟨by decide, by simp⟩
theorem witness_HighCommandReadAsAddress :
    bit7 0x80#8 = true ∧ (List.replicate 128 0#8).length ≤ 128 := ⟨by decide, by simp⟩
theorem witness_BytesOutsideFrameDiscarded :
    (inState .waitFend).dec.st = .waitFend ∧ (0xDC#8 : Byte) ≠ 0xC0#8 := by decide
theorem witness_EscapeBeginsOrAbandons :
    midFrame.dec.st ≠ .waitFend ∧ midFrame.dec.prevFesc = false ∧
    (escaped .waitNbt).dec.st ≠ .waitFend ∧ (escaped .waitNbt).dec.prevFesc = true ∧
    (0xDB#8 : Byte) ≠ 0xDC#8 ∧ (0xDB#8 : Byte) ≠ 0xDD#8 ∧ (0xDB#8 : Byte) ≠ 0xC0#8 := by decide
theorem witness_AddressByteLatched : (inState .waitAddrOrCmd).dec.st = .waitAddrOrCmd := rfl
theorem witness_CommandByteStored :
    (inState .waitAddrOrCmd).dec.st = .waitAddrOrCmd ∧ (inState .waitCmd).dec.st = .waitCmd :=
  ⟨rfl, rfl⟩
theorem witness_MalformedHeaderAbandons :
    (inState .waitCmd).dec.st = .waitCmd ∧ (inState .waitNbt).dec.st = .waitNbt ∧
    128 < (0x81#8 : Byte).toNat := by decide
theorem witness_LengthByteStored :
    (inState .waitNbt).dec.st = .waitNbt ∧ (0x80#8 : Byte).toNat ≤ 128 := by decide

/-- The last entry of a full buffer is next. -/
def lastEntry : State :=
  withDec { Decoder.reset 0 with st := .waitData, len := 128#8, cnt := 127#8 }

theorem witness_PayloadByteStored :
    lastEntry.dec.st = .waitData ∧ lastEntry.dec.cnt < lastEntry.dec.len ∧
    lastEntry.dec.len ≤ 128#8 := by decide
theorem witness_CrcByteEndsFrame :
    beforeCrc.dec.st = .waitData ∧ beforeCrc.dec.cnt = beforeCrc.dec.len ∧
    beforeCrc.dec.len ≤ 128#8 ∧ 0x63#8 = beforeCrc.dec.crc ∧ 0x64#8 ≠ beforeCrc.dec.crc := by
  decide
theorem witness_CommandCodesAtFrameHead :
    (inState .waitAddrOrCmd).dec.prevFesc = false ∧
    (inState .waitAddrOrCmd).dec.st = .waitAddrOrCmd ∧
    (inState .waitCmd).dec.prevFesc = false ∧ (inState .waitCmd).dec.st = .waitCmd := by decide

theorem beforeCrc_sound : SoundDecoder beforeCrc.dec :=
  { cnt_le_len := by decide, len_le_max := by decide, header_empty := by decide
    no_addr_yet := by decide, addr_seen := by decide, cmd_bit7 := by decide
    status_idle := by decide, cause_range := by decide, crc_data := by decide +kernel
    crc_fend := by decide, crc_addr := by decide, crc_cmd := by decide
    addr_clear := by decide, event_full := by decide, event_crc := by decide +kernel
    written := by decide, buf_wf := by decide }

theorem completed_sound : SoundDecoder completed.dec :=
  { cnt_le_len := by decide, len_le_max := by decide, header_empty := by decide
    no_addr_yet := by decide, addr_seen := by decide, cmd_bit7 := by decide
    status_idle := by decide, cause_range := by decide, crc_data := by decide
    crc_fend := by decide, crc_addr := by decide, crc_cmd := by decide
    addr_clear := by decide, event_full := by decide, event_crc := by decide +kernel
    written := by decide, buf_wf := by decide }

/-- A legal state in a frame with an escape pending. -/
theorem witness_EscapePairIsDataByte :
    (withDec { beforeCrc.dec with prevFesc := true }).dec.st ≠ .waitFend ∧
    (withDec { beforeCrc.dec with prevFesc := true }).dec.prevFesc = true ∧
    LegalDecoder (withDec { beforeCrc.dec with prevFesc := true }).dec :=
  ⟨by decide, by decide,
   { cnt_le_len := by decide, len_le_max := by decide, header_empty := by decide
     no_addr_yet := by decide, addr_seen := by decide, cmd_bit7 := by decide
     status_idle := by decide, cause_range := by decide, crc_data := by decide +kernel }⟩
theorem witness_FeedCompletesInLegalStates :
    LegalDecoder beforeCrc.dec ∧ LegalDecoder completed.dec :=
  ⟨beforeCrc_sound.toLegalDecoder, completed_sound.toLegalDecoder⟩
theorem witness_CompleteIffCrcMatches :
    SoundDecoder beforeCrc.dec ∧ ∃ t, exec (.feed 0x63#8) beforeCrc = .next t ∧
      t.dec.status = .complete := ⟨beforeCrc_sound, _, rfl, by decide⟩
theorem witness_TruncatedFrameThenValidFrame :
    bit7 4#8 = false ∧ ([0#8] : List Byte).length ≤ 128 ∧
    3 < (frameOf 4#8 [0#8]).length := by decide +kernel
/-- V-ENC-8, `C0 04 01 00 63`, with bit 0 of the payload byte flipped. -/
theorem witness_SingleBitFlipGivesInvalid :
    bit7 4#8 = false ∧ (frameOf 4#8 [0#8])[3]? = some 0#8 ∧
    (flipBit (frameOf 4#8 [0#8]) 3 0)[3]? = some 1#8 ∧ plainByte 0#8 ∧ plainByte 1#8 := by
  refine ⟨by decide, by decide, by decide, ?_, ?_⟩ <;> unfold plainByte <;> decide
theorem witness_ReadByWindow :
    completed.dec.len ≤ 128#8 ∧ completed.dec.status ≠ .pending ∧ 0#8 < completed.dec.len ∧
    completed.dec.len ≤ 1#8 ∧ State.reset.dec.len ≤ 128#8 ∧
    State.reset.dec.status = .pending := by decide
theorem witness_ReadGivesStoredByte :
    SoundDecoder completed.dec ∧ completed.dec.status ≠ .pending ∧ 0#8 < completed.dec.len :=
  ⟨completed_sound, by decide, by decide⟩
theorem witness_OtherOperationsKeepDecoder :
    (Instr.stuff 1#8).format = .combinational ∧
    (∃ t, exec (.stuff 1#8) completed = .next t) ∧ (∃ t, exec (.nop 1#8) completed = .next t) ∧
    (∃ t, exec (.read 0#8) completed = .next t) ∧ (∃ t, exec (.telem 0#8) completed = .next t) ∧
    ∃ t, exec (.encode 1#8 []) completed = .next t :=
  ⟨rfl, ⟨_, rfl⟩, ⟨_, rfl⟩, ⟨_, rfl⟩, ⟨_, rfl⟩, ⟨_, rfl⟩⟩
theorem witness_FeedFrame :
    (Instr.feedData 0x48#8).format = .feedUnstuffedByte ∧
    (∃ t, exec (.feedData 0x48#8) midFrame = .next t) ∧
    (∃ t, exec (.feed 0x48#8) midFrame = .next t) ∧
    ¬ (beforeCrc.dec.st = .waitData ∧ beforeCrc.dec.cnt < beforeCrc.dec.len) ∧
    ∃ t, exec (.feedCrcOk 0x63#8) beforeCrc = .next t :=
  ⟨rfl, ⟨_, rfl⟩, ⟨_, rfl⟩, by decide, ⟨_, rfl⟩⟩
theorem witness_TelemDecodesCompletedPayload :
    State.reset.dec.status ≠ .complete ∧ completed.dec.status = .complete ∧
    completed.dec.len ≤ 128#8 := by decide
theorem witness_TelemDecodeByLength :
    payloadS2.length = (withLayout .len90).cfg.layout.payloadLen ∧
    payloadS2.length ≠ (withLayout .len94).cfg.layout.payloadLen := by decide
theorem witness_TelemetryEventProjectsSample :
    ∃ t smp ev, exec (.telemDecode payloadS2) (withLayout .len90) = .next t ∧
      t.out = .sample smp ev := ⟨_, _, _, rfl, rfl⟩
theorem witness_ToAmpsHasNamedProperties :
    0 < (1#16 : BitVec 16).toInt ∧ (0x8000#16 : BitVec 16).toInt < 0 ∧
    (125#16 : BitVec 16).toInt % 125 = 0 := by decide
theorem witness_ToAmpsDefaultIsNearest :
    State.reset.cfg.rounding = .nearestEven ∧ f64Exp 0#64 ≠ 2047 ∧ f64Exp 1#64 ≠ 2047 := by
  decide
theorem witness_TempWidensExactly :
    f32Exp 0x7F7FFFFF#32 ≠ 255 ∧ f32IsInf 0x7F800000#32 = true ∧
    f32IsNan 0x7FC00000#32 = true := by decide
theorem witness_StepKeepsDecoderSound :
    ∃ s t, SoundDecoder s.dec ∧ step s = .next t ∧ t.dec.status = .complete :=
  ⟨{ beforeCrc with inbox := [issueFeed 0x63#8] }, _, beforeCrc_sound, rfl, by decide⟩
theorem witness_SoundStepNeverFaults :
    ∃ s r, SoundDecoder s.dec ∧ step s = .refused r :=
  ⟨{ completed with inbox := [issue 0b110#3 0#8 []] }, _, completed_sound, rfl⟩
theorem witness_StepKeepsConfiguration :
    ∃ t, step (waiting (issueFeed 0xC0#8)) = .next t := ⟨_, rfl⟩

end Sys2Proof.Tests
end

namespace Sys2Proof.Machine

/-! ### Building a block (R8, R188) -/

@[simp] theorem layoutOfLen_90 : layoutOfLen 90 = some .len90 := rfl

@[simp] theorem layoutOfLen_94 : layoutOfLen 94 = some .len94 := rfl

theorem layoutOfLen_eq_none {n : Nat} (h90 : n ≠ 90) (h94 : n ≠ 94) :
    layoutOfLen n = none := by
  simp [layoutOfLen, h90, h94]

theorem buildBlock_of_layout {n : Nat} {l : TelemLayout} (r : AmpsRounding)
    (h : layoutOfLen n = some l) :
    buildBlock n r = .next { State.reset with cfg := ⟨l, r⟩ } := by
  simp [buildBlock, h]

theorem buildBlock_of_no_layout {n : Nat} (r : AmpsRounding) (h : layoutOfLen n = none) :
    buildBlock n r = .refused (.badPayloadLen n) := by
  simp [buildBlock, h]

/-- Settles O5, by the cases of `layoutOfLen`. -/
theorem blockBuiltOnlyForLegalLength : Obligations.BlockBuiltOnlyForLegalLength := by
  intro n r
  refine ⟨?_, ?_, fun h90 h94 => buildBlock_of_no_layout r (layoutOfLen_eq_none h90 h94)⟩
  · rintro rfl
    exact buildBlock_of_layout r layoutOfLen_90
  · rintro rfl
    exact buildBlock_of_layout r layoutOfLen_94

/-! ### Rounding a quotient to the nearest integer -/

/-- The rounded quotient is at most half a unit away. -/
theorem divNearestEven_error (a : Nat) {d : Nat} (hd : 0 < d) :
    |(divNearestEven a d : ℚ) - a / d| ≤ 1 / 2 := by
  have hdiv : d * (a / d) + a % d = a := Nat.div_add_mod a d
  have hmod : a % d < d := Nat.mod_lt a hd
  have hsucc : d * (a / d + 1) = d * (a / d) + d := Nat.mul_succ _ _
  have hnat : 2 * (d * divNearestEven a d) ≤ 2 * a + d ∧
      2 * a ≤ 2 * (d * divNearestEven a d) + d := by
    simp only [divNearestEven]
    split_ifs <;> omega
  have hd' : (0 : ℚ) < d := by exact_mod_cast hd
  obtain ⟨hle, hge⟩ := hnat
  have hle' : 2 * (d * (divNearestEven a d : ℚ)) ≤ 2 * a + d := by exact_mod_cast hle
  have hge' : 2 * (a : ℚ) ≤ 2 * (d * divNearestEven a d) + d := by exact_mod_cast hge
  have ha : (d : ℚ) * (a / d) = a := mul_div_cancel₀ _ hd'.ne'
  rw [abs_le]
  constructor <;> nlinarith

theorem divNearestEven_mul_left (k : Nat) {d : Nat} (hd : 0 < d) :
    divNearestEven (d * k) d = k := by
  simp [divNearestEven, hd]

/-- A quotient between two integers rounds to a value between them. -/
theorem divNearestEven_mem_Icc {a d lo hi : Nat} (hlo : d * lo ≤ a) (hhi : a < d * hi) :
    lo ≤ divNearestEven a d ∧ divNearestEven a d ≤ hi := by
  have hd : 0 < d := Nat.pos_of_ne_zero (by rintro rfl; simp at hhi)
  have hq : lo ≤ a / d := (Nat.le_div_iff_mul_le hd).2 (by rwa [Nat.mul_comm])
  have hq' : a / d < hi := (Nat.div_lt_iff_lt_mul hd).2 (by rwa [Nat.mul_comm])
  simp only [divNearestEven]
  split_ifs <;> omega

/-! ### The fields and the value of a packed binary64 -/

/-- The factor of a sign bit. -/
def signFactor (neg : Bool) : ℚ := if neg then -1 else 1

@[simp] theorem abs_signFactor_mul (neg : Bool) (x : ℚ) : |signFactor neg * x| = |x| := by
  cases neg <;> simp [signFactor]

theorem scaledValue_of_lt (neg : Bool) (m : Nat) {e bias : Nat} (h : e < bias) :
    scaledValue neg m e bias = signFactor neg * (m / 2 ^ (bias - e)) := by
  cases neg <;> simp [scaledValue, signFactor, Nat.not_le.2 h]

section
variable (neg : Bool) {k : Nat} (hk : k < 2 ^ 63)
include hk

theorem toNat_f64Pack_zero :
    (f64Pack neg 0 k).toNat = (if neg then 2 ^ 63 else 0) + k := by
  simp only [f64Pack, BitVec.toNat_ofNat]
  split <;> omega

theorem msb_f64Pack_zero : (f64Pack neg 0 k).msb = neg := by
  rw [BitVec.msb_eq_decide, toNat_f64Pack_zero neg hk]
  cases neg
  · simpa using hk
  · simp

theorem f64Exp_f64Pack_zero : f64Exp (f64Pack neg 0 k) = k / 2 ^ 52 := by
  rw [f64Exp, BitVec.extractLsb'_toNat, toNat_f64Pack_zero neg hk, Nat.shiftRight_eq_div_pow]
  split <;> omega

theorem f64Frac_f64Pack_zero : f64Frac (f64Pack neg 0 k) = k % 2 ^ 52 := by
  rw [f64Frac, BitVec.extractLsb'_toNat, toNat_f64Pack_zero neg hk, Nat.shiftRight_eq_div_pow]
  split <;> omega

end

/-- The pattern of biased exponent `e` and 53-bit significand `q`, hidden bit included, has the
value `q · 2^(e - 1075)`, also when `q` is `2^53` and carries into the exponent. -/
theorem f64Value_f64Pack_significand (neg : Bool) {e q : Nat} (he : 0 < e) (he' : e < 1074)
    (hlo : 2 ^ 52 ≤ q) (hhi : q ≤ 2 ^ 53) :
    f64Value (f64Pack neg 0 (e * 2 ^ 52 + q - 2 ^ 52)) =
      signFactor neg * (q / 2 ^ (1075 - e)) := by
  have hk : e * 2 ^ 52 + q - 2 ^ 52 < 2 ^ 63 := by omega
  rw [f64Value, msb_f64Pack_zero neg hk, f64Exp_f64Pack_zero neg hk, f64Frac_f64Pack_zero neg hk]
  obtain hlt | rfl := hhi.lt_or_eq
  · have hexp : (e * 2 ^ 52 + q - 2 ^ 52) / 2 ^ 52 = e := by omega
    have hfrac : 2 ^ 52 + (e * 2 ^ 52 + q - 2 ^ 52) % 2 ^ 52 = q := by omega
    rw [hexp, hfrac, if_neg he.ne', scaledValue_of_lt _ _ (by omega)]
  · have hexp : (e * 2 ^ 52 + 2 ^ 53 - 2 ^ 52) / 2 ^ 52 = e + 1 := by omega
    have hfrac : (e * 2 ^ 52 + 2 ^ 53 - 2 ^ 52) % 2 ^ 52 = 0 := by omega
    have hscale : 1075 - e = 1075 - (e + 1) + 1 := by omega
    rw [hexp, hfrac, if_neg (Nat.succ_ne_zero e), scaledValue_of_lt _ _ (by omega), hscale]
    generalize 1075 - (e + 1) = j
    have hhalf : ((2 ^ 52 + 0 : Nat) : ℚ) / 2 ^ j = (2 ^ 53 : Nat) / 2 ^ (j + 1) := by
      rw [pow_succ (2 : ℚ) j]
      field_simp
      norm_num
    rw [hhalf]

theorem f64Value_zero : f64Value 0#64 = 0 := by
  rw [f64Value, if_pos (by decide), scaledValue_of_lt _ _ (by decide)]
  simp [f64Frac]

/-! ### The default conversion (R167) -/

/-- The exponent `E` of `ampsMagnitude n`: `n / 1000` lies in `[2^(E-10), 2^(E-9))`. -/
def ampsExponent (n : Nat) : Nat := Nat.log2 (n * 1024 / 1000)

/-- The 53-bit significand of `ampsMagnitude n`, hidden bit included. -/
def ampsSignificand (n : Nat) : Nat := divNearestEven (n * 2 ^ (62 - ampsExponent n)) 1000

/-- `n / 1000` as `ampsMagnitude n` rounds it. -/
def ampsRounded (n : Nat) : ℚ := ampsSignificand n / 2 ^ (62 - ampsExponent n)

theorem ampsMagnitude_eq (n : Nat) :
    ampsMagnitude n = (1013 + ampsExponent n) * 2 ^ 52 + ampsSignificand n - 2 ^ 52 := rfl

section
variable {n : Nat}

theorem ampsExponent_le (hn : n ≤ 32768) : ampsExponent n ≤ 15 := by
  have hlt : n * 1024 / 1000 < 2 ^ 16 := by omega
  obtain h0 | h0 := Nat.eq_zero_or_pos (n * 1024 / 1000)
  · simp [ampsExponent, h0]
  · have := (Nat.log2_lt h0.ne').2 hlt
    unfold ampsExponent
    omega

/-- `E` is the exponent of `1024 n / 1000`. -/
theorem ampsExponent_bounds (h0 : 0 < n) :
    1000 * 2 ^ ampsExponent n ≤ n * 1024 ∧ n * 1024 < 1000 * (2 * 2 ^ ampsExponent n) := by
  have hne : n * 1024 / 1000 ≠ 0 := by omega
  have hlo : 2 ^ ampsExponent n ≤ n * 1024 / 1000 := Nat.log2_self_le hne
  have hhi : n * 1024 / 1000 < 2 ^ (ampsExponent n + 1) := Nat.lt_log2_self
  rw [pow_succ] at hhi
  omega

/-- The significand is normalised; the upper bound itself stands for a carry. -/
theorem ampsSignificand_bounds (h0 : 0 < n) (hn : n ≤ 32768) :
    2 ^ 52 ≤ ampsSignificand n ∧ ampsSignificand n ≤ 2 ^ 53 := by
  obtain ⟨hlo, hhi⟩ := ampsExponent_bounds h0
  have he := ampsExponent_le hn
  have hsplit : 2 ^ (62 - ampsExponent n) = 1024 * 2 ^ (52 - ampsExponent n) := by
    rw [show 62 - ampsExponent n = 10 + (52 - ampsExponent n) by omega, pow_add]
    norm_num
  have hone : 2 ^ ampsExponent n * 2 ^ (52 - ampsExponent n) = 2 ^ 52 := by
    rw [← pow_add]
    congr 1
    omega
  have hpos : 0 < 2 ^ (52 - ampsExponent n) := by positivity
  apply divNearestEven_mem_Icc
  · calc 1000 * 2 ^ 52
        = 1000 * 2 ^ ampsExponent n * 2 ^ (52 - ampsExponent n) := by rw [← hone, mul_assoc]
      _ ≤ n * 1024 * 2 ^ (52 - ampsExponent n) := Nat.mul_le_mul_right _ hlo
      _ = n * 2 ^ (62 - ampsExponent n) := by rw [hsplit, mul_assoc]
  · calc n * 2 ^ (62 - ampsExponent n)
        = n * 1024 * 2 ^ (52 - ampsExponent n) := by rw [hsplit, mul_assoc]
      _ < 1000 * (2 * 2 ^ ampsExponent n) * 2 ^ (52 - ampsExponent n) :=
        Nat.mul_lt_mul_of_pos_right hhi hpos
      _ = 1000 * 2 ^ 53 := by rw [pow_succ 2 52, ← hone]; ring

theorem ampsMagnitude_lt (h0 : 0 < n) (hn : n ≤ 32768) : ampsMagnitude n < 2047 * 2 ^ 52 := by
  have he := ampsExponent_le hn
  have hsig := (ampsSignificand_bounds h0 hn).2
  rw [ampsMagnitude_eq]
  omega

/-- The rounding error is at most half a unit in the last place. -/
theorem ampsRounded_error (n : Nat) :
    |ampsRounded n - n / 1000| ≤ 1 / 2 / 2 ^ (62 - ampsExponent n) := by
  have hscale : ampsRounded n - n / 1000 =
      ((ampsSignificand n : ℚ) - (n * 2 ^ (62 - ampsExponent n) : Nat) / (1000 : Nat)) /
        2 ^ (62 - ampsExponent n) := by
    rw [ampsRounded]
    push_cast
    field_simp
  rw [hscale, abs_div, abs_of_pos (by positivity : (0 : ℚ) < 2 ^ (62 - ampsExponent n))]
  gcongr
  exact divNearestEven_error _ (by decide)

/-- In the 16-bit range that error is far below half a milliamp. -/
theorem ampsRounded_close (hn : n ≤ 32768) : |ampsRounded n - n / 1000| < 1 / 2000 := by
  have he := ampsExponent_le hn
  calc |ampsRounded n - n / 1000|
      ≤ 1 / 2 / 2 ^ (62 - ampsExponent n) := ampsRounded_error n
    _ ≤ 1 / 2 / 2 ^ 47 := by gcongr <;> [norm_num; omega]
    _ < 1 / 2000 := by norm_num

/-- `n / 1000` is a multiple of 1/8 there, so nothing is rounded off. -/
theorem ampsRounded_of_dvd (hn : n ≤ 32768) (hdvd : 125 ∣ n) : ampsRounded n = n / 1000 := by
  obtain ⟨k, rfl⟩ := hdvd
  have he := ampsExponent_le hn
  have hsplit : 2 ^ (62 - ampsExponent (125 * k)) = 8 * 2 ^ (59 - ampsExponent (125 * k)) := by
    rw [show 62 - ampsExponent (125 * k) = 3 + (59 - ampsExponent (125 * k)) by omega, pow_add]
    norm_num
  have hsig : ampsSignificand (125 * k) = k * 2 ^ (59 - ampsExponent (125 * k)) := by
    rw [ampsSignificand, hsplit, ← divNearestEven_mul_left (k * _) (by decide : 0 < 1000)]
    congr 1
    ring
  rw [ampsRounded, hsig, ← Nat.cast_ofNat (R := ℚ) (n := 2), ← Nat.cast_pow, hsplit]
  push_cast
  field_simp
  ring

end

theorem natAbs_sext16_le (m : BitVec 16) : (sext16 m).natAbs ≤ 32768 := by
  have := m.toInt_lt
  have := m.le_toInt
  unfold sext16
  omega

theorem natAbs_sext16_pos {m : BitVec 16} (h0 : m ≠ 0#16) : 0 < (sext16 m).natAbs :=
  Int.natAbs_pos.2 fun h => h0 (BitVec.eq_of_toInt_eq (h.trans BitVec.toInt_zero.symm))

/-- A 16-bit value is its sign and its magnitude. -/
theorem sext16_eq_sign_mul (m : BitVec 16) :
    (sext16 m : ℚ) = signFactor m.msb * ((sext16 m).natAbs : ℚ) := by
  have hsign : m.msb = decide (sext16 m < 0) := BitVec.msb_eq_toInt
  rw [hsign, Nat.cast_natAbs, Int.cast_abs, signFactor]
  obtain h | h := lt_or_ge (sext16 m) 0
  · have : (sext16 m : ℚ) < 0 := by exact_mod_cast h
    simp [h, abs_of_neg this]
  · have : (0 : ℚ) ≤ sext16 m := by exact_mod_cast h
    simp [h.not_gt, abs_of_nonneg this]

@[simp] theorem ampsNearestEven_zero : ampsNearestEven 0#16 = 0#64 := rfl

/-- The default conversion gives a finite value, neither an infinity nor a NaN. -/
theorem f64Exp_ampsNearestEven_ne (m : BitVec 16) : f64Exp (ampsNearestEven m) ≠ 2047 := by
  by_cases h0 : m = 0#16
  · subst h0
    decide
  · have hlt := ampsMagnitude_lt (natAbs_sext16_pos h0) (natAbs_sext16_le m)
    rw [ampsNearestEven, if_neg h0, f64Exp_f64Pack_zero m.msb (by omega)]
    omega

theorem f64Value_ampsNearestEven {m : BitVec 16} (h0 : m ≠ 0#16) :
    f64Value (ampsNearestEven m) = signFactor m.msb * ampsRounded (sext16 m).natAbs := by
  have hn := natAbs_sext16_le m
  have he := ampsExponent_le hn
  obtain ⟨hlo, hhi⟩ := ampsSignificand_bounds (natAbs_sext16_pos h0) hn
  rw [ampsNearestEven, if_neg h0, ampsMagnitude_eq,
    f64Value_f64Pack_significand m.msb (by omega) (by omega) hlo hhi, ampsRounded,
    show 1075 - (1013 + ampsExponent (sext16 m).natAbs) =
      62 - ampsExponent (sext16 m).natAbs by omega]

/-- The default conversion is off by less than half a milliamp. -/
theorem ampsNearestEven_close (m : BitVec 16) :
    |f64Value (ampsNearestEven m) - (sext16 m : ℚ) / 1000| < 1 / 2000 := by
  by_cases h0 : m = 0#16
  · subst h0
    simp [f64Value_zero, sext16]
  · rw [f64Value_ampsNearestEven h0, sext16_eq_sign_mul, mul_div_assoc, ← mul_sub,
      abs_signFactor_mul]
    exact ampsRounded_close (natAbs_sext16_le m)

/-- Property (c) of R167 for the default. -/
theorem ampsNearestEven_exact {m : BitVec 16} (h : sext16 m % 125 = 0) :
    f64Value (ampsNearestEven m) = (sext16 m : ℚ) / 1000 := by
  by_cases h0 : m = 0#16
  · subst h0
    simp [f64Value_zero, sext16]
  · have hdvd : 125 ∣ (sext16 m).natAbs := by omega
    rw [f64Value_ampsNearestEven h0, ampsRounded_of_dvd (natAbs_sext16_le m) hdvd,
      sext16_eq_sign_mul m, mul_div_assoc]

/-! ### The named properties under every configuration (R9, R167) -/

/-- Sign and monotonicity need no more than closeness: exact currents lie a milliamp apart, and
each value is off by less than half of that. -/
theorem ampsNearestEven_lawful : AmpsLawful ampsNearestEven := by
  refine ⟨ampsNearestEven_zero, fun m => ?_, fun m hm => ?_, fun m hm => ?_, fun m n hmn => ?_,
    fun _ => ampsNearestEven_exact⟩
  · simp [f64IsNan, f64Exp_ampsNearestEven_ne]
  · have hstep : (1 : ℚ) ≤ sext16 m := by exact_mod_cast hm
    linarith [(abs_lt.1 (ampsNearestEven_close m)).1]
  · have hstep : (sext16 m : ℚ) ≤ -1 := by exact_mod_cast Int.le_sub_one_of_lt hm
    linarith [(abs_lt.1 (ampsNearestEven_close m)).2]
  · obtain heq | hlt := hmn.eq_or_lt
    · rw [BitVec.eq_of_toInt_eq heq]
    · have hstep : (sext16 m : ℚ) + 1 ≤ sext16 n := by exact_mod_cast hlt
      linarith [(abs_lt.1 (ampsNearestEven_close m)).2, (abs_lt.1 (ampsNearestEven_close n)).1]

/-- The device's conversion is used only where it is lawful; elsewhere the default stands. -/
theorem ampsDevice_lawful : AmpsLawful ampsDevice := by
  by_cases h : AmpsLawful Config.deviceAmps
  · have hdev : ampsDevice = Config.deviceAmps := funext fun _ => if_pos h
    rwa [hdev]
  · have hdef : ampsDevice = ampsNearestEven := funext fun _ => if_neg h
    rw [hdef]
    exact ampsNearestEven_lawful

theorem toAmps_lawful (r : AmpsRounding) : AmpsLawful (toAmps r) := by
  cases r with
  | nearestEven => exact ampsNearestEven_lawful
  | device => exact ampsDevice_lawful

theorem exec_toAmps_eq (m : BitVec 16) (s : State) :
    exec (.toAmps m) s = .next { s with out := .f64 (toAmps s.cfg.rounding m) } := rfl

/-- Settles O53, as both conversions are lawful. -/
theorem toAmpsHasNamedProperties : Obligations.ToAmpsHasNamedProperties := by
  refine ⟨exec_toAmps_eq, fun r => ?_⟩
  obtain ⟨hzero, -, hpos, hneg, hmono, hexact⟩ := toAmps_lawful r
  exact ⟨hzero, hpos, hneg, hmono, hexact⟩

end Sys2Proof.Machine

namespace Sys2Proof.Machine

/-! ### The codes and the reset values (R21, R29, R33, R180) -/

/-- Settles O6: each code is the constructor's own equation. -/
theorem registerCodes : Obligations.RegisterCodes := ⟨rfl, rfl, rfl⟩

@[simp] theorem bufRead_reset (n i : Nat) : bufRead (Decoder.reset n) i = Config.bufAny n i := rfl

theorem decodeWord_clear (data : Byte) (p : List Byte) :
    decodeWord (opWordOf 0b010#3 data) p = .clear data := by
  simp [decodeWord]

theorem exec_clear_eq (data : Byte) (s : State) :
    exec (.clear data) s = .next (clearDecoder s) := rfl

/-- Settles O1: the three decoders are `Decoder.reset n` for some `n`. -/
theorem resetAndClearLeaveResetValues : Obligations.ResetAndClearLeaveResetValues := by
  intro data s
  refine ⟨decodeWord_clear data, Decoder.reset s.draws, exec_clear_eq data s, fun e he => ?_⟩
  obtain ⟨n, rfl⟩ : ∃ n, e = Decoder.reset n := by
    obtain rfl | rfl | rfl := he
    · exact ⟨s.draws, rfl⟩
    · exact ⟨0, rfl⟩
    · exact ⟨s.draws, rfl⟩
  simp

@[simp] theorem bit7_zero : bit7 0#8 = false := by decide

theorem Decoder.reset_sound (n : Nat) : SoundDecoder (Decoder.reset n) where
  cnt_le_len := by simp
  len_le_max := by simp
  header_empty := by simp
  no_addr_yet := by simp
  addr_seen := by simp
  cmd_bit7 := by simp
  status_idle := by simp
  cause_range := by simp [Cause.code]
  crc_data := by simp
  crc_fend := by simp
  crc_addr := by simp
  crc_cmd := by simp
  addr_clear := by simp
  event_full := by simp
  event_crc := by simp
  written := by simp
  buf_wf := rfl

/-- Settles O57: right after reset the decoder is `Decoder.reset 0`. -/
theorem resetIsSound : Obligations.ResetIsSound := Decoder.reset_sound 0

/-! ### What a host operation can do to the state (R48, R61) -/

/-- The three effects of a host operation or a reset: an output alone, the reset values, or one
FEED. -/
inductive HostEffect (s : State) : State → Prop
  | output (o : Output) : HostEffect s { s with out := o }
  | clear : HostEffect s (clearDecoder s)
  | feed {b : Byte} {d : Decoder} (o : Output) (h : feedByte b s.dec = .ok d) :
      HostEffect s { s with dec := d, out := o }

theorem HostEffect.of_answer {o : Output} {s t : State} (h : answer o s = .next t) :
    HostEffect s t := by
  obtain rfl := answer_next h
  exact .output o

/-- A combinational function answers an output and nothing else (R54). -/
theorem exec_combinational {i : Instr} (hi : i.format = .combinational) (s : State) :
    ∃ o, exec i s = answer o s := by
  cases i with
  | crc8Step | crc8Seq | stuff | stuffSeq | unstuffStep | unstuffSeq | telemDecode | toAmps
  | tempF64 | isTelemetry => exact ⟨_, rfl⟩
  | _ => cases hi

theorem execEncode_eq_answer (c : Byte) (p : List Byte) (s : State) :
    ∃ o, execEncode c p s = answer o s := by
  unfold execEncode
  split <;> exact ⟨_, rfl⟩

/-- READ answers only outputs; beyond the buffer it faults. -/
theorem execRead_next {i : Byte} {s t : State} (h : execRead i s = .next t) :
    ∃ o, answer o s = .next t := by
  unfold execRead at h
  split_ifs at h
  · exact ⟨_, h⟩
  · exact ⟨_, h⟩

/-- TELEM answers only outputs; with `len` beyond the buffer it faults. -/
theorem execTelem_next (data : Byte) {s t : State} (h : execTelem data s = .next t) :
    ∃ o, answer o s = .next t := by
  unfold execTelem at h
  split_ifs at h
  · obtain ⟨-, h⟩ := withPayload_next h
    exact ⟨_, h⟩
  · exact ⟨_, h⟩

theorem execFeed_effect {b : Byte} {s t : State} (h : execFeed b s = .next t) :
    HostEffect s t := by
  obtain ⟨d, hd, hp⟩ := finishFeed_next h
  obtain rfl := presentFeed_next hp
  exact .feed _ hd

/-- What an operation word can do, by its select (R61). -/
theorem exec_opWord_effect {i : Instr} (hi : i.format = .opWord11) {s t : State}
    (h : exec i s = .next t) : HostEffect s t := by
  cases i with
  | nop data => exact .of_answer h
  | feed b => exact execFeed_effect h
  | clear data =>
    obtain rfl := Host.Outcome.next.inj h
    exact .clear
  | encode c p =>
    obtain ⟨o, ho⟩ := execEncode_eq_answer c p s
    exact .of_answer (ho.symm.trans h)
  | read idx =>
    obtain ⟨o, ho⟩ := execRead_next h
    exact .of_answer ho
  | telem data =>
    obtain ⟨o, ho⟩ := execTelem_next data h
    exact .of_answer ho
  | reserved110 | reserved111 => cases h
  | _ => cases hi

theorem decodeWord_format (w : OpWord) (p : List Byte) :
    (decodeWord w p).format = .opWord11 := by
  simp only [decodeWord]
  split_ifs <;> rfl

/-- A host operation is an operation word or a combinational function, never an arm of FEED
(R61). -/
theorem decodeHost_format {op : HostOp} {i : Instr} (h : decodeHost op = .ok i) :
    i.format = .opWord11 ∨ i.format = .combinational := by
  cases op with
  | word w p =>
    obtain rfl := Except.ok.inj h
    exact .inl (decodeWord_format w p)
  | call j =>
    simp only [decodeHost] at h
    split_ifs at h with hj
    obtain rfl := Except.ok.inj h
    exact .inr hj

theorem runInput_effect {i : HostInput} {s t : State} (h : runInput i s = .next t) :
    HostEffect s t := by
  unfold runInput at h
  split at h
  · obtain rfl := Host.Outcome.next.inj h
    exact .clear
  split at h
  · obtain rfl := Host.Outcome.next.inj h
    exact .output s.out
  split at h
  · rename_i ins hins
    obtain hword | hcomb := decodeHost_format hins
    · exact exec_opWord_effect hword h
    · obtain ⟨o, ho⟩ := exec_combinational hcomb s
      exact .of_answer (ho.symm.trans h)
  · cases h

/-- What a step can do: stand still with no input waiting, or take the first input and do what
that input does (R48). -/
theorem step_cases {s t : State} (h : step s = .next t) :
    t = s ∨ ∃ i rest, s.inbox = i :: rest ∧ HostEffect (takeInput rest s) t := by
  unfold step runNext at h
  split at h
  · exact .inl (Host.Outcome.next.inj h).symm
  · rename_i i rest hinbox
    exact .inr ⟨i, rest, hinbox, runInput_effect h⟩

/-! ### The configuration (R31) -/

theorem HostEffect.cfg_eq {s t : State} (h : HostEffect s t) : t.cfg = s.cfg := by
  cases h <;> rfl

/-- Settles O60, by the effects of a step. -/
theorem stepKeepsConfiguration : Obligations.StepKeepsConfiguration := by
  intro s t h
  obtain rfl | ⟨-, rest, -, heffect⟩ := step_cases h
  · rfl
  · exact heffect.cfg_eq.trans (takeInput_cfg rest s)

/-! ### The CRC accumulator over the frame so far (R102, R104) -/

theorem crc8Seq_snoc (init : Byte) (bs : List Byte) (b : Byte) :
    crc8Seq init (bs ++ [b]) = crc8Step (crc8Seq init bs) b := by
  simp [crc8Seq]

/-- `CRC_RX` before the first payload byte is the header's fold. -/
theorem crcRx_zero (d : Decoder) :
    crcRx d 0 =
      crc8Step (crc8Seq Config.crcInit ([Config.fend] ++ addrPart d ++ [d.cmd])) d.len := by
  simp [crcRx, crc8Seq]

/-- `CRC_RX` folds one payload byte after the other. -/
theorem crcRx_succ (d : Decoder) (n : Nat) :
    crcRx d (n + 1) = crc8Step (crcRx d n) (bufRead d n) := by
  rw [crcRx, crcRx, bufSlice_succ, ← List.append_assoc, crc8Seq_snoc]

theorem addrPart_of_no_addr {d : Decoder} (h : d.hasAddr = false) : addrPart d = [] := by
  simp [addrPart, h]

@[simp] theorem addrPart_armAddr (a : BitVec 7) (d : Decoder) :
    addrPart (armAddr a d) = [clearBit7 a] := rfl

@[simp] theorem addrPart_armCmd (v : Byte) (d : Decoder) :
    addrPart (armCmd v d) = addrPart d := rfl

@[simp] theorem addrPart_armLen (v : Byte) (d : Decoder) :
    addrPart (armLen v d) = addrPart d := rfl

/-- Equal entries below `n` give equal slices. -/
theorem bufSlice_congr {d e : Decoder} {n : Nat} (h : ∀ i < n, bufRead d i = bufRead e i) :
    bufSlice d n = bufSlice e n :=
  List.map_congr_left fun i hi => h i (List.mem_range.1 hi)

/-- `CRC_RX` reads the header's registers and the entries below `n`. -/
theorem crcRx_congr {d e : Decoder} {n : Nat} (haddr : addrPart d = addrPart e)
    (hcmd : d.cmd = e.cmd) (hlen : d.len = e.len) (hbuf : ∀ i < n, bufRead d i = bufRead e i) :
    crcRx d n = crcRx e n := by
  rw [crcRx, crcRx, haddr, hcmd, hlen, bufSlice_congr hbuf]

/-! ### Each arm of FEED keeps the decoder sound (R34) -/

theorem fendCause_code_le (st : FsmState) : (fendCause st).code ≤ 5#4 := by
  cases st <;> decide

theorem armFend_sound {d : Decoder} (hd : SoundDecoder d) : SoundDecoder (armFend d) where
  cnt_le_len := by simp
  len_le_max := by simp
  header_empty := by simp
  no_addr_yet := by simp
  addr_seen := by simp
  cmd_bit7 := by simp
  status_idle := by simp
  cause_range := fendCause_code_le d.st
  crc_data := by simp
  crc_fend _ := rfl
  crc_addr := by simp
  crc_cmd := by simp
  addr_clear := by simp
  event_full := by simp
  event_crc := by simp
  written := by simp
  buf_wf := hd.buf_wf

section
variable {d : Decoder} (hd : SoundDecoder d)
include hd

/-- In a frame there is no event (R34 item 6). -/
theorem SoundDecoder.pending_of_in_frame (h : d.st ≠ .waitFend) : d.status = .pending :=
  not_imp_comm.1 hd.status_idle h

theorem beginFeed_sound (pf : Bool) : SoundDecoder (beginFeed pf d) :=
  { hd with
    status_idle := by simp
    cause_range := by simp [Cause.code]
    event_full := by simp
    event_crc := by simp }

theorem abandon_sound {c : Cause} (hc : c.code ≤ 5#4) : SoundDecoder (abandon c d) :=
  { hd with
    header_empty := by simp
    no_addr_yet := by simp
    addr_seen := by simp
    status_idle := by simp
    cause_range := hc
    crc_data := by simp
    crc_fend := by simp
    crc_addr := by simp
    crc_cmd := by simp
    event_full := by simp
    event_crc := by simp }

theorem armAddr_sound (a : BitVec 7) (hst : d.st = .waitAddrOrCmd) :
    SoundDecoder (armAddr a d) :=
  have hpending : d.status = .pending := hd.pending_of_in_frame (by simp [hst])
  { hd with
    header_empty _ := hd.header_empty (.inl hst)
    no_addr_yet := by simp
    addr_seen := by simp
    status_idle := by simp [hpending]
    crc_data := by simp
    crc_fend := by simp
    crc_addr _ := by rw [armAddr_crc, hd.crc_fend hst, addrPart_armAddr, crc8Seq_snoc]
    crc_cmd := by simp
    addr_clear := by simp
    event_full := by simp [hpending]
    event_crc := by simp [hpending] }

/-- Where a command can stand, the accumulator holds `FEND` and the address, if any. -/
theorem SoundDecoder.crc_before_cmd (hst : d.st = .waitAddrOrCmd ∨ d.st = .waitCmd) :
    d.crc = crc8Seq Config.crcInit ([Config.fend] ++ addrPart d) := by
  obtain hst | hst := hst
  · rw [addrPart_of_no_addr (hd.no_addr_yet hst), List.append_nil, hd.crc_fend hst]
  · exact hd.crc_addr hst

theorem armCmd_sound {v : Byte} (hv : bit7 v = false)
    (hst : d.st = .waitAddrOrCmd ∨ d.st = .waitCmd) : SoundDecoder (armCmd v d) :=
  have hpending : d.status = .pending :=
    hd.pending_of_in_frame (by obtain h | h := hst <;> simp [h])
  { hd with
    header_empty _ := hd.header_empty (hst.imp_right .inl)
    no_addr_yet := by simp
    addr_seen := by simp
    cmd_bit7 := hv
    status_idle := by simp [hpending]
    crc_data := by simp
    crc_fend := by simp
    crc_addr := by simp
    crc_cmd _ := by
      rw [armCmd_crc, hd.crc_before_cmd hst, addrPart_armCmd, armCmd_cmd, crc8Seq_snoc]
    event_full := by simp [hpending]
    event_crc := by simp [hpending] }

theorem armLen_sound {v : Byte} (hv : v ≤ 128#8) (hst : d.st = .waitNbt) :
    SoundDecoder (armLen v d) :=
  have hpending : d.status = .pending := hd.pending_of_in_frame (by simp [hst])
  { hd with
    cnt_le_len := BitVec.le_def.2 (Nat.zero_le v.toNat)
    len_le_max := hv
    header_empty := by simp
    no_addr_yet := by simp
    addr_seen := by simp
    status_idle := by simp [hpending]
    crc_data _ := by
      rw [armLen_cnt, BitVec.toNat_ofNat, Nat.zero_mod, crcRx_zero, armLen_crc, hd.crc_cmd hst,
        addrPart_armLen, armLen_cmd, armLen_len]
    crc_fend := by simp
    crc_addr := by simp
    crc_cmd := by simp
    event_full := by simp [hpending]
    event_crc := by simp [hpending]
    written := by simp }

/-- Counting a payload byte does not wrap, as `len` is at most 128. -/
theorem SoundDecoder.toNat_cnt_succ (hlt : d.cnt < d.len) :
    (d.cnt + 1#8).toNat = d.cnt.toNat + 1 := by
  have := hd.len_le_max
  bv_omega

/-- The entries below `cnt` stay, and entry `cnt` is the byte just folded. -/
theorem armData_sound {v : Byte} {e : Decoder} (he : armData v d = .ok e)
    (hst : d.st = .waitData) (hlt : d.cnt < d.len) : SoundDecoder e := by
  obtain ⟨hi, rfl⟩ := armData_eq_ok he
  have hpending : d.status = .pending := hd.pending_of_in_frame (by simp [hst])
  have hsucc := hd.toNat_cnt_succ hlt
  refine { hd with
    cnt_le_len := ?cnt_le_len, header_empty := by simp [hst], crc_data := fun _ => ?crc_data,
    status_idle := by simp [hpending], crc_fend := by simp [hst], crc_addr := by simp [hst],
    crc_cmd := by simp [hst], event_full := by simp [hpending],
    event_crc := by simp [hpending], written := ?written, buf_wf := Memory.wf_write v hi hd.buf_wf }
  case cnt_le_len =>
    change d.cnt + 1#8 ≤ d.len
    bv_omega
  case crc_data =>
    change crc8Step d.crc v = crcRx _ (d.cnt + 1#8).toNat
    rw [hsucc, crcRx_succ, bufRead_of_read (Memory.read_write_same _ _ v), hd.crc_data hst]
    congr 1
    refine crcRx_congr rfl rfl rfl fun i hi => ?_
    simp only [bufRead, Memory.read_write_other _ v hi.ne]
  case written =>
    intro i hi
    change i < (d.cnt + 1#8).toNat at hi
    by_cases heq : i = d.cnt.toNat
    · simp [heq]
    · rw [Memory.read_write_other _ v heq]
      exact hd.written i (by omega)

/-- The CRC byte stands after the whole payload, so the event is complete and its accumulator
is `CRC_RX`. -/
theorem endFrame_sound (k : Status) {c : Cause} (hc : c.code ≤ 5#4) (hst : d.st = .waitData)
    (hfull : ¬ d.cnt < d.len) : SoundDecoder (endFrame k c d) :=
  have hcnt : d.cnt = d.len := BitVec.le_antisymm hd.cnt_le_len (BitVec.not_lt.1 hfull)
  { hd with
    header_empty := by simp
    no_addr_yet := by simp
    addr_seen := by simp
    status_idle := by simp
    cause_range := hc
    crc_data := by simp
    crc_fend := by simp
    crc_addr := by simp
    crc_cmd := by simp
    event_full _ := hcnt
    event_crc _ := by
      have hcrc := hd.crc_data hst
      rwa [hcnt] at hcrc }

/-- The arm of the state, in the order of R130's last part. -/
theorem armOfState_sound {v : Byte} {e : Decoder} (he : armOfState v d = .ok e) :
    SoundDecoder e := by
  cases hst : d.st with
  | waitFend =>
    simp only [armOfState, hst, Except.ok.injEq] at he
    exact he ▸ hd
  | waitAddrOrCmd =>
    simp only [armOfState, hst, Except.ok.injEq] at he
    subst he
    split_ifs with hv
    · exact armAddr_sound hd _ hst
    · exact armCmd_sound hd (Bool.eq_false_of_not_eq_true hv) (.inl hst)
  | waitCmd =>
    simp only [armOfState, hst, Except.ok.injEq] at he
    subst he
    split_ifs with hv
    · exact abandon_sound hd (by decide)
    · exact armCmd_sound hd (Bool.eq_false_of_not_eq_true hv) (.inr hst)
  | waitNbt =>
    simp only [armOfState, hst, Except.ok.injEq] at he
    subst he
    split_ifs with hv
    · exact armLen_sound hd hv hst
    · exact abandon_sound hd (by decide)
  | waitData =>
    simp only [armOfState, hst] at he
    split_ifs at he with hlt hv
    · exact armData_sound hd he hst hlt
    · exact Except.ok.inj he ▸ endFrame_sound hd .complete (by decide) hst hlt
    · exact Except.ok.inj he ▸ endFrame_sound hd .invalid (by decide) hst hlt

/-- Whatever the byte, FEED leaves sound registers. -/
theorem feedByte_sound {b : Byte} {e : Decoder} (he : feedByte b d = .ok e) :
    SoundDecoder e := by
  have hbegin := beginFeed_sound hd (unstuffStep d.prevFesc b).1
  obtain ⟨-, h⟩ | ⟨-, -, h⟩ | ⟨-, -, -, h⟩ | ⟨-, -, -, h⟩ | ⟨-, -, v, -, h⟩ :=
    feedByte_cases b d <;> rw [h] at he
  · exact Except.ok.inj he ▸ armFend_sound hd
  · exact Except.ok.inj he ▸ hbegin
  · exact Except.ok.inj he ▸ hbegin
  · exact Except.ok.inj he ▸ abandon_sound hbegin (by decide)
  · exact armOfState_sound hbegin he

end

/-! ### Every step keeps the decoder sound -/

theorem HostEffect.sound {s t : State} (h : HostEffect s t) (hs : SoundDecoder s.dec) :
    SoundDecoder t.dec := by
  cases h with
  | output o => exact hs
  | clear => exact Decoder.reset_sound s.draws
  | feed o hfeed => exact feedByte_sound hs hfeed

/-- Settles O58, by the effects of a step and the arms of FEED. -/
theorem stepKeepsDecoderSound : Obligations.StepKeepsDecoderSound := by
  intro s t hs h
  obtain rfl | ⟨-, rest, -, heffect⟩ := step_cases h
  · exact hs
  · exact heffect.sound hs

end Sys2Proof.Machine

namespace Sys2Proof.Machine

/-! ### What a step does with the first host input (R48, R61) -/

theorem step_of_no_input {s : State} (h : s.inbox = []) : step s = .next s := by
  simp [step, runNext, h]

theorem step_of_input {s : State} {i : HostInput} {rest : List HostInput}
    (h : s.inbox = i :: rest) : step s = runInput i (takeInput rest s) := by
  simp [step, runNext, h]

theorem runInput_empty (s : State) : runInput { reset := false, op := none } s = .next s := rfl

theorem runInput_of_decode {op : HostOp} {i : Instr} (h : decodeHost op = .ok i) (s : State) :
    runInput { reset := false, op := some op } s = exec i s := by
  simp [runInput, h]

/-- Only arms of FEED carry a condition on their byte, so a host operation carries none. -/
theorem wf_of_host_format {i : Instr}
    (h : i.format = .opWord11 ∨ i.format = .combinational) : i.wf = true := by
  cases i with
  | feedDiscard | feedEscErr | feedLen | feedLenBad => simp [Instr.format] at h
  | _ => rfl

/-- Settles O3: the input is taken, then its decoded operation runs. -/
theorem stepRunsDecodedOperation : Obligations.StepRunsDecodedOperation := by
  intro s op rest i hinbox hdecode
  exact ⟨wf_of_host_format (decodeHost_format hdecode),
    (step_of_input hinbox).trans (runInput_of_decode hdecode _)⟩

/-- Settles O4: no input to take, or one with nothing to run. -/
theorem stepWithoutOperationChangesNothing : Obligations.StepWithoutOperationChangesNothing :=
  ⟨fun _ => step_of_no_input, fun _ _ hinbox => (step_of_input hinbox).trans (runInput_empty _)⟩

/-! ### READ in the event's window (R41, R147) -/

theorem exec_read_in_window {i : Byte} {s : State} (hlen : s.dec.len ≤ 128#8)
    (hst : s.dec.status ≠ .pending) (hi : i < s.dec.len) :
    exec (.read i) s = answer (.byte (bufRead s.dec i.toNat)) s := by
  have hwindow : ¬ (s.dec.status = .pending ∨ s.dec.len ≤ i) :=
    not_or.2 ⟨hst, BitVec.not_le.2 hi⟩
  have hentry : i.toNat < Config.maxPayload :=
    Nat.lt_of_lt_of_le (BitVec.lt_def.1 hi) (BitVec.le_def.1 hlen)
  change execRead i s = _
  rw [execRead, if_neg hwindow, if_pos hentry]

/-- An event has its whole payload, and every byte counted has been written. -/
theorem SoundDecoder.read_in_window {d : Decoder} (hd : SoundDecoder d)
    (hst : d.status ≠ .pending) {i : Nat} (hi : i < d.len.toNat) :
    ∃ v, Memory.read d.buf i = some v :=
  Option.isSome_iff_exists.1 (hd.written i (by rwa [hd.event_full hst]))

/-- Settles O47: the entry read is a written one, so the answer is its byte. -/
theorem readGivesStoredByte : Obligations.ReadGivesStoredByte := by
  intro i s hs hst hi
  obtain ⟨v, hv⟩ := hs.read_in_window hst (BitVec.lt_def.1 hi)
  refine ⟨v, hv, ?_⟩
  rw [exec_read_in_window hs.len_le_max hst hi, bufRead_of_read hv, answer]

/-! ### The operations that only answer (R47, R54) -/

/-- Settles O48: each of these operations, if it completes, is an `answer`. -/
theorem otherOperationsKeepDecoder : Obligations.OtherOperationsKeepDecoder := by
  intro i s t hi h
  obtain ⟨o, ho⟩ : ∃ o, answer o s = .next t := by
    obtain hcomb | ⟨x, rfl⟩ | ⟨x, rfl⟩ | ⟨x, rfl⟩ | ⟨c, p, rfl⟩ := hi
    · obtain ⟨o, ho⟩ := exec_combinational hcomb s
      exact ⟨o, ho.symm.trans h⟩
    · exact ⟨.nothing, h⟩
    · exact execRead_next h
    · exact execTelem_next x h
    · obtain ⟨o, ho⟩ := execEncode_eq_answer c p s
      exact ⟨o, ho.symm.trans h⟩
  obtain rfl := answer_next ho
  exact ⟨rfl, rfl, rfl, rfl⟩

/-! ### What FEED and its arms can do to the payload buffer (R40, R140) -/

/-- From `d` to `e` the buffer stays, or entry `cnt` alone is written, in `WAIT_DATA` with `cnt`
below `len`. -/
inductive BufEffect (d e : Decoder) : Prop
  | kept (hbuf : e.buf = d.buf) (hepoch : e.bufEpoch = d.bufEpoch)
  | stored (v : Byte) (hst : d.st = .waitData) (hlt : d.cnt < d.len)
      (hbuf : e.buf = Memory.write d.buf d.cnt.toNat v) (hepoch : e.bufEpoch = d.bufEpoch)

section
variable {d e : Decoder}

theorem BufEffect.bufEpoch_eq (h : BufEffect d e) : e.bufEpoch = d.bufEpoch := by
  cases h <;> assumption

theorem BufEffect.bufRead_other (h : BufEffect d e) {j : Nat} (hj : j ≠ d.cnt.toNat) :
    bufRead e j = bufRead d j := by
  cases h with
  | kept hbuf hepoch => exact bufRead_congr hbuf hepoch j
  | stored v hst hlt hbuf hepoch =>
    simp only [bufRead, hbuf, hepoch, Memory.read_write_other _ v hj]

theorem BufEffect.bufRead_outside_data (h : BufEffect d e)
    (hno : ¬ (d.st = .waitData ∧ d.cnt < d.len)) (j : Nat) : bufRead e j = bufRead d j := by
  cases h with
  | kept hbuf hepoch => exact bufRead_congr hbuf hepoch j
  | stored v hst hlt hbuf hepoch => exact absurd ⟨hst, hlt⟩ hno

theorem armData_bufEffect {v : Byte} (hst : d.st = .waitData) (hlt : d.cnt < d.len)
    (he : armData v d = .ok e) : BufEffect d e := by
  obtain ⟨-, rfl⟩ := armData_eq_ok he
  exact .stored v hst hlt rfl rfl

/-- Of the arms of the five states, only `FEED_DATA` stores. -/
theorem armOfState_bufEffect {v : Byte} (he : armOfState v d = .ok e) : BufEffect d e := by
  cases hst : d.st with
  | waitFend =>
    simp only [armOfState, hst, Except.ok.injEq] at he
    exact he ▸ .kept rfl rfl
  | waitAddrOrCmd | waitCmd | waitNbt =>
    simp only [armOfState, hst, Except.ok.injEq] at he
    subst he
    split_ifs <;> exact .kept rfl rfl
  | waitData =>
    simp only [armOfState, hst] at he
    split_ifs at he with hlt
    · exact armData_bufEffect hst hlt he
    · exact Except.ok.inj he ▸ .kept rfl rfl
    · exact Except.ok.inj he ▸ .kept rfl rfl

/-- What `beginFeed` writes is not the buffer, `st`, `cnt` or `len`. -/
theorem BufEffect.of_beginFeed {pf : Bool} (h : BufEffect (beginFeed pf d) e) :
    BufEffect d e := by
  cases h with
  | kept hbuf hepoch => exact .kept hbuf hepoch
  | stored v hst hlt hbuf hepoch => exact .stored v hst hlt hbuf hepoch

theorem feedByte_bufEffect {b : Byte} (he : feedByte b d = .ok e) : BufEffect d e := by
  obtain ⟨-, h⟩ | ⟨-, -, h⟩ | ⟨-, -, -, h⟩ | ⟨-, -, -, h⟩ | ⟨-, -, v, -, h⟩ :=
    feedByte_cases b d <;> rw [h] at he
  · exact Except.ok.inj he ▸ .kept rfl rfl
  · exact Except.ok.inj he ▸ .kept rfl rfl
  · exact Except.ok.inj he ▸ .kept rfl rfl
  · exact Except.ok.inj he ▸ .kept rfl rfl
  · exact (armOfState_bufEffect he).of_beginFeed

end

/-! ### The frame of FEED, of its arms and of the command-code bytes -/

/-- A FEED replaces the decoder's registers and the output; its buffer is as `BufEffect` says. -/
inductive FeedEffect (s : State) : State → Prop
  | intro {d : Decoder} (o : Output) (h : BufEffect s.dec d) :
      FeedEffect s { s with dec := d, out := o }

section
variable {s t : State}

theorem FeedEffect.of_finishFeed {r : Except Fault Decoder}
    (hr : ∀ d, r = .ok d → BufEffect s.dec d) (h : finishFeed r s = .next t) :
    FeedEffect s t := by
  obtain ⟨d, hd, hp⟩ := finishFeed_next h
  obtain rfl := presentFeed_next hp
  exact .intro _ (hr d hd)

theorem feedRaw_effect {b : Byte} (h : feedRaw b s = .next t) : FeedEffect s t :=
  .of_finishFeed (fun _ => feedByte_bufEffect) h

theorem runArm_effect {i : Instr} {r : Decoder → Except Fault Decoder}
    (h : runArm i r s = .next t)
    (hr : rowApplies s.dec i = true → ∀ d, r s.dec = .ok d → BufEffect s.dec d) :
    FeedEffect s t := by
  obtain ⟨happlies, h⟩ := runArm_next h
  exact .of_finishFeed (hr happlies) h

theorem feedData_applies_iff {v : Byte} {d : Decoder} :
    rowApplies d (.feedData v) = true ↔ d.st = .waitData ∧ d.cnt < d.len := by
  simp [rowApplies]

/-- FEED, the arms and the command-code bytes: only the escape pairs and `FEED_DATA` can
store. -/
theorem exec_feed_effect {i : Instr}
    (hi : (∃ b, i = .feed b) ∨ i.format = .feedRawByte ∨ i.format = .feedUnstuffedByte ∨
      i.format = .commandCode)
    (h : exec i s = .next t) : FeedEffect s t := by
  unfold exec at h
  cases i with
  | feed | cmdTelemetry | cmdInvalidSentinel => exact feedRaw_effect h
  | feedEscTfend | feedEscTfesc =>
    exact runArm_effect h fun _ _ he =>
      (armOfState_bufEffect (d := beginFeed false s.dec) he).of_beginFeed
  | feedData =>
    refine runArm_effect h fun happlies _ he => ?_
    obtain ⟨hst, hlt⟩ := feedData_applies_iff.1 happlies
    exact (armData_bufEffect (d := beginFeed false s.dec) hst hlt he).of_beginFeed
  | feedFend | feedDiscard | feedEscBegin | feedEscErr | feedAddr | feedCmd0 | feedCmd1
  | feedCmdBad | feedLen | feedLenBad | feedCrcOk | feedCrcBad =>
    exact runArm_effect h fun _ _ he => Except.ok.inj he ▸ .kept rfl rfl
  | _ => simp [Instr.format] at hi

end

/-- Settles O49, by the effect of a FEED on the buffer. -/
theorem feedFrame : Obligations.FeedFrame := by
  intro i s t hi h
  obtain ⟨-, hbuf⟩ := exec_feed_effect hi h
  exact ⟨rfl, rfl, rfl, hbuf.bufEpoch_eq, fun _ => hbuf.bufRead_other,
    hbuf.bufRead_outside_data⟩

end Sys2Proof.Machine

namespace Sys2Proof.Machine

/-! ### The operation map, one equation per select (R61) -/

section
variable {w : OpWord} (p : List Byte)

theorem decodeWord_of_nop (h : wordOp w = 0b000#3) : decodeWord w p = .nop (wordData w) := by
  simp [decodeWord, h]

theorem decodeWord_of_feed (h : wordOp w = 0b001#3) : decodeWord w p = .feed (wordData w) := by
  simp [decodeWord, h]

theorem decodeWord_of_clear (h : wordOp w = 0b010#3) : decodeWord w p = .clear (wordData w) := by
  simp [decodeWord, h]

theorem decodeWord_of_encode (h : wordOp w = 0b011#3) :
    decodeWord w p = .encode (wordData w) p := by
  simp [decodeWord, h]

theorem decodeWord_of_read (h : wordOp w = 0b100#3) : decodeWord w p = .read (wordData w) := by
  simp [decodeWord, h]

theorem decodeWord_of_telem (h : wordOp w = 0b101#3) : decodeWord w p = .telem (wordData w) := by
  simp [decodeWord, h]

theorem decodeWord_of_reserved110 (h : wordOp w = 0b110#3) :
    decodeWord w p = .reserved110 (wordData w) := by
  simp [decodeWord, h]

theorem decodeWord_of_reserved111 (h : wordOp w = 0b111#3) :
    decodeWord w p = .reserved111 (wordData w) := by
  simp [decodeWord, h]

end

/-- Every word has one of the eight selects. -/
theorem wordOp_cases (w : OpWord) :
    wordOp w = 0b000#3 ∨ wordOp w = 0b001#3 ∨ wordOp w = 0b010#3 ∨ wordOp w = 0b011#3 ∨
    wordOp w = 0b100#3 ∨ wordOp w = 0b101#3 ∨ wordOp w = 0b110#3 ∨ wordOp w = 0b111#3 := by
  generalize wordOp w = op
  revert op
  decide

/-! ### Decode of encode, one lemma per format of the opcode table -/

section
variable (d : Decoder) {i : Instr}

theorem decode_encode_of_opWord (hi : i.format = .opWord11) : decode d (encode i) = .ok i := by
  cases i with
  | nop | feed | clear | encode | read | telem | reserved110 | reserved111 =>
    simp [encode, decode, decodeHost, decodeWord]
  | _ => cases hi

/-- A combinational row is its own request (R61). -/
theorem decode_encode_of_combinational (hi : i.format = .combinational) :
    decode d (encode i) = .ok i := by
  cases i with
  | crc8Step | crc8Seq | stuff | stuffSeq | unstuffStep | unstuffSeq | telemDecode | toAmps
  | tempF64 | isTelemetry => rfl
  | _ => cases hi

theorem decode_encode_of_commandCode (hi : i.format = .commandCode) :
    decode d (encode i) = .ok i := by
  cases i with
  | cmdTelemetry | cmdInvalidSentinel => rfl
  | _ => cases hi

variable {d}

/-- The rows of a raw byte are tested in the order of R182; each row's condition rules out the
tests before it. -/
theorem decode_encode_of_rawByte (hi : i.format = .feedRawByte) (h : rowApplies d i = true) :
    decode d (encode i) = .ok i := by
  cases i with
  | feedFend => rfl
  | feedDiscard b =>
    obtain ⟨hst, hb⟩ : d.st = .waitFend ∧ b ≠ Config.fend := by simpa [rowApplies] using h
    simp [encode, decode, selectRaw, hst, hb]
  | feedEscBegin =>
    obtain ⟨hst, hesc⟩ : d.st ≠ .waitFend ∧ d.prevFesc = false := by simpa [rowApplies] using h
    simp [encode, decode, selectRaw, hst, hesc]
  | feedEscTfend | feedEscTfesc =>
    obtain ⟨hst, hesc⟩ : d.st ≠ .waitFend ∧ d.prevFesc = true := by simpa [rowApplies] using h
    simp [encode, decode, selectRaw, hst, hesc]
  | feedEscErr b =>
    obtain ⟨⟨hst, hesc⟩, ⟨htfend, htfesc⟩, hfend⟩ : (d.st ≠ .waitFend ∧ d.prevFesc = true) ∧
        (b ≠ Config.tfend ∧ b ≠ Config.tfesc) ∧ b ≠ Config.fend := by
      simpa [rowApplies] using h
    simp [encode, decode, selectRaw, hst, hesc, htfend, htfesc, hfend]
  | _ => cases hi

/-- The state selects among the rows of an unstuffed byte, then bit 7, the length's bound, or
`cnt` and `crc` (R130). -/
theorem decode_encode_of_dataByte (hi : i.format = .feedUnstuffedByte)
    (h : rowApplies d i = true) : decode d (encode i) = .ok i := by
  cases i with
  | feedAddr | feedCmd0 | feedCmd1 | feedCmdBad =>
    have hst := eq_of_beq h
    simp [encode, decode, selectData, hst]
  | feedLen v =>
    obtain ⟨hst, hv⟩ : d.st = .waitNbt ∧ v ≤ 128#8 := by simpa [rowApplies] using h
    simp [encode, decode, selectData, hst, hv]
  | feedLenBad v =>
    obtain ⟨hst, hv⟩ : d.st = .waitNbt ∧ 128#8 < v := by simpa [rowApplies] using h
    simp [encode, decode, selectData, hst, BitVec.not_le.2 hv]
  | feedData v =>
    obtain ⟨hst, hlt⟩ := feedData_applies_iff.1 h
    simp [encode, decode, selectData, hst, hlt]
  | feedCrcOk v =>
    obtain ⟨⟨hst, hfull⟩, hv⟩ : (d.st = .waitData ∧ ¬ d.cnt < d.len) ∧ v = d.crc := by
      simpa [rowApplies] using h
    simp [encode, decode, selectData, hst, hfull, hv]
  | feedCrcBad v =>
    obtain ⟨⟨hst, hfull⟩, hv⟩ : (d.st = .waitData ∧ ¬ d.cnt < d.len) ∧ v ≠ d.crc := by
      simpa [rowApplies] using h
    simp [encode, decode, selectData, hst, hfull, hv]
  | _ => cases hi

end

/-- Settles O8, by the format of the row. -/
theorem decodeEncodeEveryRow : Obligations.DecodeEncodeEveryRow := by
  intro d i _ happlies
  cases hi : i.format with
  | opWord11 => exact decode_encode_of_opWord d hi
  | feedRawByte => exact decode_encode_of_rawByte hi happlies
  | feedUnstuffedByte => exact decode_encode_of_dataByte hi happlies
  | combinational => exact decode_encode_of_combinational d hi
  | commandCode => exact decode_encode_of_commandCode d hi

/-! ### Encode of decode: select and operand make up the whole word (R60) -/

theorem opWordOf_of_wordOp {w : OpWord} {op : BitVec 3} (h : wordOp w = op) :
    opWordOf op (wordData w) = w := by
  rw [← h, opWordOf_fields]

theorem encode_decodeWord (w : OpWord) (p : List Byte) :
    encode (decodeWord w p) = .host (.word w (if wordOp w = 0b011#3 then p else [])) := by
  obtain h | h | h | h | h | h | h | h := wordOp_cases w
  all_goals simp [decodeWord, encode, opWordOf_of_wordOp h, h]

/-- Settles O9: a word decodes to an operation word of its own bits. -/
theorem encodeDecodeEveryWord : Obligations.EncodeDecodeEveryWord := fun w p =>
  ⟨decodeWord w p, rfl, wf_of_host_format (.inl (decodeWord_format w p)),
    decodeWord_format w p, encode_decodeWord w p⟩

/-! ### The arm of each state (R130) -/

section
variable (v : Byte) {d : Decoder}

theorem armOfState_of_waitFend (h : d.st = .waitFend) : armOfState v d = .ok d := by
  simp only [armOfState, h]

theorem armOfState_of_waitAddrOrCmd (h : d.st = .waitAddrOrCmd) :
    armOfState v d = .ok (if bit7 v then armAddr (low7 v) d else armCmd v d) := by
  simp only [armOfState, h]

theorem armOfState_of_waitCmd (h : d.st = .waitCmd) :
    armOfState v d = .ok (if bit7 v then armCmdBad d else armCmd v d) := by
  simp only [armOfState, h]

theorem armOfState_of_waitNbt (h : d.st = .waitNbt) :
    armOfState v d = .ok (if v ≤ 128#8 then armLen v d else armLenBad d) := by
  simp only [armOfState, h]

theorem armOfState_of_waitData (h : d.st = .waitData) :
    armOfState v d = if d.cnt < d.len then armData v d
      else .ok (if v = d.crc then armCrcOk d else armCrcBad d) := by
  simp only [armOfState, h]

end

/-! ### In a sound state every operation completes, unless it is refused (R62, R180) -/

theorem SoundDecoder.toNat_len_le {d : Decoder} (hd : SoundDecoder d) :
    d.len.toNat ≤ Config.maxPayload :=
  BitVec.le_def.1 hd.len_le_max

/-- Only `FEED_DATA` names an entry of the buffer, and entry `cnt` exists where `cnt` is below a
legal `len`. -/
theorem armOfState_completes {d : Decoder} (hlen : d.len.toNat ≤ Config.maxPayload) (v : Byte) :
    ∃ e, armOfState v d = .ok e := by
  cases hst : d.st with
  | waitFend => exact ⟨_, armOfState_of_waitFend v hst⟩
  | waitAddrOrCmd => exact ⟨_, armOfState_of_waitAddrOrCmd v hst⟩
  | waitCmd => exact ⟨_, armOfState_of_waitCmd v hst⟩
  | waitNbt => exact ⟨_, armOfState_of_waitNbt v hst⟩
  | waitData =>
    rw [armOfState_of_waitData v hst]
    by_cases hlt : d.cnt < d.len
    · rw [if_pos hlt]
      exact ⟨_, armData_ok v (Nat.lt_of_lt_of_le (BitVec.lt_def.1 hlt) hlen)⟩
    · exact ⟨_, if_neg hlt⟩

theorem feedByte_completes {d : Decoder} (hlen : d.len.toNat ≤ Config.maxPayload) (b : Byte) :
    ∃ e, feedByte b d = .ok e := by
  obtain ⟨-, h⟩ | ⟨-, -, h⟩ | ⟨-, -, -, h⟩ | ⟨-, -, -, h⟩ | ⟨-, -, v, -, h⟩ :=
    feedByte_cases b d
  · exact ⟨_, h⟩
  · exact ⟨_, h⟩
  · exact ⟨_, h⟩
  · exact ⟨_, h⟩
  · rw [h]
    exact armOfState_completes (d := beginFeed _ d) hlen v

/-- An event's payload lies inside the buffer, so presenting it cannot fail. -/
theorem presentFeed_completes {d : Decoder} (hlen : d.len.toNat ≤ Config.maxPayload)
    (s : State) : ∃ t, presentFeed d s = .next t := by
  unfold presentFeed
  split_ifs
  · exact ⟨_, rfl⟩
  · exact ⟨_, withPayload_of_le _ hlen⟩

theorem decodeHost_call_of_combinational {i : Instr} (hi : i.format = .combinational) :
    decodeHost (.call i) = .ok i :=
  if_pos hi

theorem runInput_call_refused {i : Instr} (hi : i.format ≠ .combinational) (s : State) :
    runInput { reset := false, op := some (.call i) } s = .refused .notCombinational := by
  simp [runInput, decodeHost, hi, refusalOf]

section
variable {s : State} (hs : SoundDecoder s.dec)
include hs

theorem exec_feed_completes (b : Byte) : ∃ t, exec (.feed b) s = .next t := by
  obtain ⟨d, hd⟩ := feedByte_completes hs.toNat_len_le b
  obtain ⟨t, ht⟩ := presentFeed_completes (feedByte_sound hs hd).toNat_len_le s
  refine ⟨t, ?_⟩
  change finishFeed (feedByte b s.dec) s = _
  rw [hd]
  exact ht

theorem exec_read_completes (i : Byte) : ∃ t, exec (.read i) s = .next t := by
  by_cases hwindow : s.dec.status = .pending ∨ s.dec.len ≤ i
  · exact ⟨_, if_pos hwindow⟩
  · obtain ⟨hst, hi⟩ := not_or.1 hwindow
    exact ⟨_, exec_read_in_window hs.len_le_max hst (BitVec.not_le.1 hi)⟩

theorem exec_telem_completes (data : Byte) : ∃ t, exec (.telem data) s = .next t := by
  change ∃ t, execTelem data s = .next t
  unfold execTelem
  split_ifs
  · exact ⟨_, withPayload_of_le _ hs.toNat_len_le⟩
  · exact ⟨_, rfl⟩

theorem exec_decodeWord_completes_or_reserved (w : OpWord) (p : List Byte) :
    (∃ t, exec (decodeWord w p) s = .next t) ∨
    (wordOp w = 0b110#3 ∨ wordOp w = 0b111#3) ∧ ∃ r, exec (decodeWord w p) s = .refused r := by
  obtain h | h | h | h | h | h | h | h := wordOp_cases w
  · exact .inl ⟨_, congrArg (exec · s) (decodeWord_of_nop p h)⟩
  · rw [decodeWord_of_feed p h]
    exact .inl (exec_feed_completes hs _)
  · exact .inl ⟨_, congrArg (exec · s) (decodeWord_of_clear p h)⟩
  · obtain ⟨o, ho⟩ := execEncode_eq_answer (wordData w) p s
    rw [decodeWord_of_encode p h]
    exact .inl ⟨_, ho⟩
  · rw [decodeWord_of_read p h]
    exact .inl (exec_read_completes hs _)
  · rw [decodeWord_of_telem p h]
    exact .inl (exec_telem_completes hs _)
  · exact .inr ⟨.inl h, _, congrArg (exec · s) (decodeWord_of_reserved110 p h)⟩
  · exact .inr ⟨.inr h, _, congrArg (exec · s) (decodeWord_of_reserved111 p h)⟩

/-- A host input completes, or is one of those that R62 and log 12 refuse. -/
theorem runInput_completes_or_refusable (i : HostInput) :
    (∃ t, runInput i s = .next t) ∨ refusableInput i ∧ ∃ r, runInput i s = .refused r := by
  obtain ⟨reset, op⟩ := i
  cases reset with
  | true => exact .inl ⟨_, rfl⟩
  | false =>
    cases op with
    | none => exact .inl ⟨_, rfl⟩
    | some op =>
      cases op with
      | word w p =>
        rw [runInput_of_decode (op := .word w p) rfl s]
        exact (exec_decodeWord_completes_or_reserved hs w p).imp_right
          (And.imp_left fun h => ⟨rfl, .inl ⟨w, p, rfl, h⟩⟩)
      | call j =>
        by_cases hj : j.format = .combinational
        · obtain ⟨o, ho⟩ := exec_combinational hj s
          rw [runInput_of_decode (decodeHost_call_of_combinational hj) s]
          exact .inl ⟨_, ho⟩
        · exact .inr ⟨⟨rfl, .inr ⟨j, rfl, hj⟩⟩, _, runInput_call_refused hj s⟩

/-- A step completes, or its input is one that R62 and log 12 refuse. -/
theorem step_completes_or_refusable :
    (∃ t, step s = .next t) ∨
    (∃ i rest, s.inbox = i :: rest ∧ refusableInput i) ∧ ∃ r, step s = .refused r := by
  cases hinbox : s.inbox with
  | nil => exact .inl ⟨s, step_of_no_input hinbox⟩
  | cons i rest =>
    rw [step_of_input hinbox]
    exact (runInput_completes_or_refusable (s := takeInput rest s) hs i).imp_right
      (And.imp_left fun h => ⟨i, rest, rfl, h⟩)

end

/-- Settles O59: a step that completes neither faults nor is refused, and one that does not is
refused for its input. -/
theorem soundStepNeverFaults : Obligations.SoundStepNeverFaults := by
  intro s hs
  obtain ⟨t, ht⟩ | ⟨hinput, r, hr⟩ := step_completes_or_refusable hs
  · exact ⟨fun f hf => by simp [ht] at hf, fun r hr => by simp [ht] at hr⟩
  · exact ⟨fun f hf => by simp [hr] at hf, fun _ _ => hinput⟩

/-! ### Words whose operand has no effect (R62, R63) -/

/-- Settles O7, by evaluation of the eleven closed words. -/
theorem sampleWordsDecode : Obligations.SampleWordsDecode := by
  unfold Obligations.SampleWordsDecode
  decide

/-- Settles O10: each of the three meanings leaves `data` unread. -/
theorem dataFieldIgnored : Obligations.DataFieldIgnored := by
  intro v w p q s hvw hop
  obtain h | h | h := hop
  · rw [decodeWord_of_nop p (hvw.trans h), decodeWord_of_nop q h]
    rfl
  · rw [decodeWord_of_clear p (hvw.trans h), decodeWord_of_clear q h]
    rfl
  · rw [decodeWord_of_telem p (hvw.trans h), decodeWord_of_telem q h]
    rfl

/-- Settles O11: the word decodes to a reserved row, which is refused in every state. -/
theorem reservedSelectsRefused : Obligations.ReservedSelectsRefused := fun _ p s =>
  ⟨fun h => ⟨decodeWord_of_reserved110 p h,
      congrArg (exec · s) (decodeWord_of_reserved110 p h)⟩,
    fun h => ⟨decodeWord_of_reserved111 p h,
      congrArg (exec · s) (decodeWord_of_reserved111 p h)⟩⟩

/-! ### The command codes at the head of a frame (R70) -/

/-- In a frame, a byte without a part in stuffing reaches the state's arm as it is. -/
theorem feedByte_of_plain {b : Byte} {d : Decoder} (hb : plainByte b) (hst : d.st ≠ .waitFend)
    (hesc : d.prevFesc = false) : feedByte b d = armOfState b (beginFeed false d) := by
  obtain ⟨hfend, hfesc, -, -⟩ := hb
  simp [feedByte, unstuffStep, hfend, hfesc, hst, hesc]

/-- A FEED whose arm leaves `status` PENDING completes with the arm's registers. -/
theorem feedRaw_of_pending {b : Byte} {s : State} {d : Decoder} (h : feedByte b s.dec = .ok d)
    (hpending : d.status = .pending) :
    feedRaw b s = .next { s with dec := d, out := .feed d.status d.cause none } := by
  rw [feedRaw, h]
  exact presentFeed_of_pending s hpending

theorem plainByte_telemCmd : plainByte Config.telemCmd := by
  simp [plainByte]

theorem plainByte_invalidCmd : plainByte Config.invalidCmd := by
  simp [plainByte]

/-- A byte with bit 7 clear is the command, with or without an address before it. -/
theorem armOfState_of_command {v : Byte} {d : Decoder} (hv : bit7 v = false)
    (hst : d.st = .waitAddrOrCmd ∨ d.st = .waitCmd) : armOfState v d = .ok (armCmd v d) := by
  obtain h | h := hst
  · simp [armOfState_of_waitAddrOrCmd v h, hv]
  · simp [armOfState_of_waitCmd v h, hv]

section
variable {s : State} (hesc : s.dec.prevFesc = false)
include hesc

theorem exec_cmdTelemetry_as_command (hst : s.dec.st = .waitAddrOrCmd ∨ s.dec.st = .waitCmd) :
    ∃ t, exec .cmdTelemetry s = .next t ∧
      t.dec = armCmd Config.telemCmd (beginFeed false s.dec) := by
  have hframe : s.dec.st ≠ .waitFend := by obtain h | h := hst <;> simp [h]
  have hfeed := (feedByte_of_plain plainByte_telemCmd hframe hesc).trans
    (armOfState_of_command (by decide) hst)
  exact ⟨_, feedRaw_of_pending hfeed rfl, rfl⟩

theorem exec_cmdInvalidSentinel_as_address (hst : s.dec.st = .waitAddrOrCmd) :
    ∃ t, exec .cmdInvalidSentinel s = .next t ∧
      t.dec = armAddr 0x7F#7 (beginFeed false s.dec) := by
  have hfeed := (feedByte_of_plain plainByte_invalidCmd (by simp [hst]) hesc).trans
    (armOfState_of_waitAddrOrCmd _ hst)
  exact ⟨_, feedRaw_of_pending hfeed rfl, rfl⟩

theorem exec_cmdInvalidSentinel_abandons (hst : s.dec.st = .waitCmd) :
    ∃ t, exec .cmdInvalidSentinel s = .next t ∧
      t.dec = armCmdBad (beginFeed false s.dec) := by
  have hfeed := (feedByte_of_plain plainByte_invalidCmd (by simp [hst]) hesc).trans
    (armOfState_of_waitCmd _ hst)
  exact ⟨_, feedRaw_of_pending hfeed rfl, rfl⟩

end

/-- Settles O40: `0x55` has bit 7 clear, and `0xFF` is bit 7 and the address `0x7F`. -/
theorem commandCodesAtFrameHead : Obligations.CommandCodesAtFrameHead := by
  intro s hesc
  refine ⟨fun hst => ⟨?_, ?_⟩, fun hst => ⟨?_, ?_⟩⟩
  · obtain ⟨t, ht, hdec⟩ := exec_cmdTelemetry_as_command hesc (.inl hst)
    exact ⟨t, ht, by simp [hdec]⟩
  · obtain ⟨t, ht, hdec⟩ := exec_cmdInvalidSentinel_as_address hesc hst
    exact ⟨t, ht, by simp [hdec]⟩
  · obtain ⟨t, ht, hdec⟩ := exec_cmdTelemetry_as_command hesc (.inr hst)
    exact ⟨t, ht, by simp [hdec]⟩
  · obtain ⟨t, ht, hdec⟩ := exec_cmdInvalidSentinel_abandons hesc hst
    exact ⟨t, ht, by simp [hdec, armCmdBad]⟩

end Sys2Proof.Machine

namespace Sys2Proof.Machine

/-! ### The accumulator's eight iterations (R100) -/

theorem crc8Rounds_eq_iterate (n : Nat) (x : Byte × Byte) : crc8Rounds n x = crc8Round^[n] x := by
  induction n generalizing x with
  | zero => rfl
  | succ n ih => exact ih (crc8Round x)

/-- The source's test compares the two low bits. -/
theorem crc8Round_eq_ite (x : Byte × Byte) :
    crc8Round x = if x.2.getLsbD 0 ≠ x.1.getLsbD 0
      then (((x.1 ^^^ 0x18#8) >>> 1) ||| 0x80#8, x.2 >>> 1)
      else ((x.1 >>> 1) &&& 0x7F#8, x.2 >>> 1) := by
  simp only [crc8Round, ← Bool.bne_eq_xor, bne_iff_ne]

/-- Settles O12, as the model's rounds are iterations of the source's. -/
theorem crcStepIsEightIterations : Obligations.CrcStepIsEightIterations := by
  intro crc b s
  rw [← funext crc8Round_eq_ite, ← crc8Rounds_eq_iterate]
  rfl

/-- Settles O13: `List.foldl` over a concatenation. -/
theorem crcSeqIsLeftFold : Obligations.CrcSeqIsLeftFold := fun _ _ _ _ =>
  ⟨rfl, rfl, List.foldl_append⟩

/-! ### The shift-xor form (R101 item 1) -/

@[simp] theorem crc8Round_snd (x : Byte × Byte) : (crc8Round x).2 = x.2 >>> 1 := by
  unfold crc8Round
  split <;> rfl

/-- The source sets bit 7 after the shift; `0x18` shifted and bit 7 make up `0x8C`. -/
theorem shift_xor_or_bit7 (c : Byte) :
    ((c ^^^ 0x18#8) >>> 1) ||| 0x80#8 = (c >>> 1) ^^^ 0x8C#8 := by
  revert c
  decide

theorem shift_and_not_bit7 (c : Byte) : (c >>> 1) &&& 0x7F#8 = c >>> 1 := by
  revert c
  decide

/-- The invariant of the two loops: accumulator XOR remaining input is the one register of the
shift-xor form. -/
theorem crc8Round_xor (x : Byte × Byte) :
    (crc8Round x).1 ^^^ (crc8Round x).2 = shiftXorRound (x.1 ^^^ x.2) := by
  simp only [crc8Round, shiftXorRound, BitVec.getLsbD_xor, Bool.xor_comm (x.2.getLsbD 0),
    shift_xor_or_bit7, shift_and_not_bit7, BitVec.ushiftRight_xor_distrib _ x.2]
  split_ifs
  · dsimp only
    ac_rfl
  · rfl

theorem crc8Rounds_snd (n : Nat) (x : Byte × Byte) : (crc8Rounds n x).2 = x.2 >>> n := by
  induction n generalizing x with
  | zero => simp [crc8Rounds]
  | succ n ih =>
    rw [crc8Rounds, ih, crc8Round_snd, ← BitVec.shiftRight_add, Nat.add_comm]

theorem crc8Rounds_xor (n : Nat) (x : Byte × Byte) :
    (crc8Rounds n x).1 ^^^ (crc8Rounds n x).2 = shiftXorRounds n (x.1 ^^^ x.2) := by
  induction n generalizing x with
  | zero => rfl
  | succ n ih => rw [crc8Rounds, ih, crc8Round_xor, shiftXorRounds]

/-- After 8 rounds the input byte is used up, and the accumulator alone is left. -/
theorem crc8Step_eq_shiftXorRounds (crc b : Byte) :
    crc8Step crc b = shiftXorRounds 8 (crc ^^^ b) := by
  have hused : (crc8Rounds 8 (crc, b)).2 = 0#8 := by
    rw [crc8Rounds_snd]
    exact BitVec.ushiftRight_eq_zero (le_refl 8)
  have hxor := crc8Rounds_xor 8 (crc, b)
  rwa [hused, BitVec.xor_zero] at hxor

/-! ### The table form (R101 item 2) -/

/-- The shift-xor form of the `n` bytes from `lo` on. -/
def shiftXorTable (lo n : Nat) : List Nat :=
  (List.range' lo n).map fun i => (shiftXorRounds 8 (BitVec.ofNat 8 i)).toNat

theorem shiftXorTable_append (lo m n : Nat) :
    shiftXorTable lo m ++ shiftXorTable (lo + m) n = shiftXorTable lo (m + n) := by
  rw [shiftXorTable, shiftXorTable, ← List.map_append, List.range'_append_1, shiftXorTable]

theorem crcTable0_eq : crcTable0 = shiftXorTable 0x00 64 := by decide

theorem crcTable4_eq : crcTable4 = shiftXorTable 0x40 64 := by decide

theorem crcTable8_eq : crcTable8 = shiftXorTable 0x80 64 := by decide

theorem crcTableC_eq : crcTableC = shiftXorTable 0xC0 64 := by decide

theorem crcTable_rows_eq :
    crcTable0 ++ crcTable4 ++ crcTable8 ++ crcTableC = shiftXorTable 0 256 := by
  rw [crcTable0_eq, crcTable4_eq, crcTable8_eq, crcTableC_eq, shiftXorTable_append 0 64 64,
    shiftXorTable_append 0 128 64, shiftXorTable_append 0 192 64]

theorem crcTable_eq_shiftXorRounds (x : Byte) : crcTable x = shiftXorRounds 8 x := by
  have hx : x.toNat < 256 := x.isLt
  rw [crcTable, crcTable_rows_eq]
  simp [shiftXorTable, hx]

/-- Settles O14: the shift-xor rounds are the common form of the three. -/
theorem crcFormsAgree : Obligations.CrcFormsAgree := by
  intro crc b
  rw [crc8Step_eq_shiftXorRounds, crc8Table, crcTable_eq_shiftXorRounds]
  exact ⟨rfl, rfl⟩

/-! ### Linearity and injectivity (R105) -/

/-- What the bit shifted out of the register adds to it: `0x8C` is its image (R105). -/
def lowBitImage (bit : Bool) : Byte := if bit then 0x8C#8 else 0#8

theorem shiftXorRound_eq (c : Byte) :
    shiftXorRound c = (c >>> 1) ^^^ lowBitImage (c.getLsbD 0) := by
  unfold shiftXorRound lowBitImage
  split
  · rfl
  · rw [BitVec.xor_zero]

theorem lowBitImage_xor (p q : Bool) :
    lowBitImage (p ^^ q) = lowBitImage p ^^^ lowBitImage q := by
  revert p q
  decide

theorem getLsbD_lowBitImage_seven (bit : Bool) : (lowBitImage bit).getLsbD 7 = bit := by
  revert bit
  decide

theorem shiftXorRound_xor (c d : Byte) :
    shiftXorRound (c ^^^ d) = shiftXorRound c ^^^ shiftXorRound d := by
  simp only [shiftXorRound_eq, BitVec.getLsbD_xor, BitVec.ushiftRight_xor_distrib,
    lowBitImage_xor]
  ac_rfl

theorem shiftXorRounds_xor (n : Nat) (c d : Byte) :
    shiftXorRounds n (c ^^^ d) = shiftXorRounds n c ^^^ shiftXorRounds n d := by
  induction n generalizing c d with
  | zero => rfl
  | succ n ih => rw [shiftXorRounds, shiftXorRound_xor, ih]; rfl

/-- Settles O15, by the linearity of the rounds. -/
theorem crcStepLinear : Obligations.CrcStepLinear := by
  intro c₁ c₂ b₁ b₂
  have hswap : c₁ ^^^ c₂ ^^^ (b₁ ^^^ b₂) = (c₁ ^^^ b₁) ^^^ (c₂ ^^^ b₂) := by ac_rfl
  simp only [crc8Step_eq_shiftXorRounds, hswap, shiftXorRounds_xor]

/-- A shifted byte has bit 7 clear, so bit 7 of the round keeps the bit shifted out. -/
theorem getLsbD_shiftXorRound_seven (c : Byte) :
    (shiftXorRound c).getLsbD 7 = c.getLsbD 0 := by
  rw [shiftXorRound_eq, BitVec.getLsbD_xor, getLsbD_lowBitImage_seven, BitVec.getLsbD_ushiftRight,
    BitVec.getLsbD_of_ge c (1 + 7) (le_refl 8), Bool.false_xor]

/-- A byte is its low bit and the rest shifted. -/
theorem eq_of_low_of_shift {c d : Byte} (hlow : c.getLsbD 0 = d.getLsbD 0)
    (hshift : c >>> 1 = d >>> 1) : c = d := by
  refine BitVec.eq_of_getLsbD_eq fun i _ => ?_
  cases i with
  | zero => exact hlow
  | succ i =>
    have hbit := congrArg (BitVec.getLsbD · i) hshift
    simpa [Nat.add_comm] using hbit

theorem shiftXorRound_injective : Function.Injective shiftXorRound := by
  intro c d h
  have hlow : c.getLsbD 0 = d.getLsbD 0 := by
    rw [← getLsbD_shiftXorRound_seven, h, getLsbD_shiftXorRound_seven]
  rw [shiftXorRound_eq, shiftXorRound_eq, hlow] at h
  exact eq_of_low_of_shift hlow ((BitVec.xor_left_inj _).1 h)

theorem shiftXorRounds_injective (n : Nat) : Function.Injective (shiftXorRounds n) := by
  induction n with
  | zero => exact fun _ _ h => h
  | succ n ih => exact ih.comp shiftXorRound_injective

theorem crc8Step_left_injective (b : Byte) : Function.Injective fun crc => crc8Step crc b := by
  intro c d h
  simp only [crc8Step_eq_shiftXorRounds] at h
  exact (BitVec.xor_left_inj b).1 (shiftXorRounds_injective 8 h)

theorem crc8Step_right_injective (crc : Byte) : Function.Injective (crc8Step crc) := by
  intro b b' h
  simp only [crc8Step_eq_shiftXorRounds] at h
  exact (BitVec.xor_right_inj crc).1 (shiftXorRounds_injective 8 h)

/-- A difference in the accumulator stays through every later step. -/
theorem crc8Seq_injective (bs : List Byte) : Function.Injective fun init => crc8Seq init bs := by
  induction bs with
  | nil => exact fun _ _ h => h
  | cons b bs ih => exact ih.comp (crc8Step_left_injective b)

/-- Settles O16: the prefix brings both to one accumulator, the changed byte parts them, and the
rest keeps them apart. -/
theorem crcDetectsOneChangedByte : Obligations.CrcDetectsOneChangedByte := by
  intro init b b' xs ys hne h
  simp only [crc8Seq, List.foldl_append, List.foldl_cons] at h
  exact hne (crc8Step_right_injective _ (crc8Seq_injective ys h))

/-! ### COMPLETE (R104, R141) -/

section
variable {d e : Decoder}

/-- Of the arms of the five states, only `FEED_CRC_OK` gives `COMPLETE`. -/
theorem armOfState_complete_iff {v : Byte} (hpending : d.status = .pending)
    (he : armOfState v d = .ok e) :
    e.status = .complete ↔ d.st = .waitData ∧ ¬ d.cnt < d.len ∧ v = d.crc := by
  cases hst : d.st with
  | waitFend =>
    rw [armOfState_of_waitFend v hst] at he
    simp [← Except.ok.inj he, hpending]
  | waitAddrOrCmd =>
    rw [armOfState_of_waitAddrOrCmd v hst] at he
    rw [← Except.ok.inj he]
    split_ifs <;> simp [hpending]
  | waitCmd =>
    rw [armOfState_of_waitCmd v hst] at he
    rw [← Except.ok.inj he]
    split_ifs <;> simp [hpending, armCmdBad]
  | waitNbt =>
    rw [armOfState_of_waitNbt v hst] at he
    rw [← Except.ok.inj he]
    split_ifs <;> simp [hpending, armLenBad]
  | waitData =>
    rw [armOfState_of_waitData v hst] at he
    split_ifs at he with hlt hcrc
    · obtain ⟨-, rfl⟩ := armData_eq_ok he
      simp [hpending, hlt]
    · simp [← Except.ok.inj he, armCrcOk, hlt, hcrc]
    · simp [← Except.ok.inj he, armCrcBad, hcrc]

/-- FEED gives `COMPLETE` only through `FEED_CRC_OK`. -/
theorem feedByte_complete_iff {b : Byte} (he : feedByte b d = .ok e) :
    e.status = .complete ↔
      b ≠ Config.fend ∧ d.st = .waitData ∧ ¬ d.cnt < d.len ∧
        (unstuffStep d.prevFesc b).2 = .data d.crc := by
  obtain ⟨hb, h⟩ | ⟨-, hst, h⟩ | ⟨-, -, hu, h⟩ | ⟨-, -, hu, h⟩ | ⟨hb, -, v, hu, h⟩ :=
    feedByte_cases b d <;> rw [h] at he
  · simp [← Except.ok.inj he, hb]
  · simp [← Except.ok.inj he, hst]
  · simp [← Except.ok.inj he, hu]
  · simp [← Except.ok.inj he, hu, armEscErr]
  · rw [armOfState_complete_iff (beginFeed_status _ d) he]
    simp [hb, hu]

end

/-- Where the payload is full, the accumulator is `CRC_RX` (R34 item 8). -/
theorem SoundDecoder.crc_eq_crcRx_of_full {d : Decoder} (hd : SoundDecoder d)
    (hst : d.st = .waitData) (hfull : d.cnt = d.len) : d.crc = crcRx d d.len.toNat := by
  rw [hd.crc_data hst, hfull]

theorem SoundDecoder.not_cnt_lt_len_iff {d : Decoder} (hd : SoundDecoder d) :
    ¬ d.cnt < d.len ↔ d.cnt = d.len :=
  ⟨fun h => BitVec.le_antisymm hd.cnt_le_len (BitVec.not_lt.1 h),
    fun h => h ▸ BitVec.lt_irrefl _⟩

/-- Settles O41: `FEED_CRC_OK` compares with `crc`, which is `CRC_RX` there. -/
theorem completeIffCrcMatches : Obligations.CompleteIffCrcMatches := by
  intro b s t hs h
  obtain ⟨d, hd, hp⟩ := finishFeed_next h
  obtain rfl := presentFeed_next hp
  rw [feedByte_complete_iff hd, hs.not_cnt_lt_len_iff]
  refine and_congr_right fun _ => and_congr_right fun hst => and_congr_right fun hfull => ?_
  rw [hs.crc_eq_crcRx_of_full hst hfull]
  rfl

end Sys2Proof.Machine

namespace Sys2Proof.Machine

/-! ### The stuffed form of a byte (R110) -/

@[simp] theorem stuff_fend : stuff Config.fend = [Config.fesc, Config.tfend] := rfl

@[simp] theorem stuff_fesc : stuff Config.fesc = [Config.fesc, Config.tfesc] := rfl

theorem stuff_of_ne {b : Byte} (hfend : b ≠ Config.fend) (hfesc : b ≠ Config.fesc) :
    stuff b = [b] := by
  simp only [stuff, if_neg hfend, if_neg hfesc]

/-- Every byte is `FEND`, `FESC`, or sent as it is. -/
theorem stuff_cases (b : Byte) :
    b = Config.fend ∨ b = Config.fesc ∨
      b ≠ Config.fend ∧ b ≠ Config.fesc ∧ stuff b = [b] := by
  by_cases hfend : b = Config.fend
  · exact .inl hfend
  by_cases hfesc : b = Config.fesc
  · exact .inr (.inl hfesc)
  · exact .inr (.inr ⟨hfend, hfesc, stuff_of_ne hfend hfesc⟩)

theorem stuff_length_bounds (b : Byte) : 1 ≤ (stuff b).length ∧ (stuff b).length ≤ 2 := by
  obtain rfl | rfl | ⟨-, -, h⟩ := stuff_cases b
  · simp
  · simp
  · simp [h]

theorem fend_notMem_stuff (b : Byte) : Config.fend ∉ stuff b := by
  obtain rfl | rfl | ⟨hfend, -, h⟩ := stuff_cases b
  · decide
  · decide
  · simpa [h] using Ne.symm hfend

/-- Settles O17, by the cases of `stuff`. -/
theorem stuffByCases : Obligations.StuffByCases := fun _ _ => rfl

/-! ### The stuffed form of a sequence (R111, R114) -/

@[simp] theorem stuffSeq_nil : stuffSeq [] = [] := rfl

@[simp] theorem stuffSeq_cons (b : Byte) (bs : List Byte) :
    stuffSeq (b :: bs) = stuff b ++ stuffSeq bs := List.flatMap_cons

theorem stuffSeq_append (bs cs : List Byte) :
    stuffSeq (bs ++ cs) = stuffSeq bs ++ stuffSeq cs := List.flatMap_append

theorem stuffSeq_length_bounds (bs : List Byte) :
    bs.length ≤ (stuffSeq bs).length ∧ (stuffSeq bs).length ≤ 2 * bs.length := by
  induction bs with
  | nil => simp
  | cons b bs ih =>
    have hb := stuff_length_bounds b
    simp only [stuffSeq_cons, List.length_append, List.length_cons]
    omega

/-- Settles O18: `stuffSeq` is the concatenation, one or two bytes for each byte. -/
theorem stuffSeqConcatenates : Obligations.StuffSeqConcatenates := fun bs _ =>
  ⟨rfl, stuffSeq_length_bounds bs⟩

theorem fend_notMem_stuffSeq (bs : List Byte) : Config.fend ∉ stuffSeq bs := by
  intro h
  obtain ⟨b, -, hb⟩ := List.mem_flatMap.1 h
  exact fend_notMem_stuff b hb

/-- Every `FESC` in the sequence is followed by `TFEND` or `TFESC` (R114 item 3). -/
def EscapesComplete (bs : List Byte) : Prop :=
  ∀ j : Nat, bs[j]? = some Config.fesc →
    bs[j + 1]? = some Config.tfend ∨ bs[j + 1]? = some Config.tfesc

theorem escapesComplete_nil : EscapesComplete [] := fun _ h => by simp at h

theorem EscapesComplete.cons_of_ne {b : Byte} {bs : List Byte} (h : EscapesComplete bs)
    (hb : b ≠ Config.fesc) : EscapesComplete (b :: bs) := fun j hj => by
  cases j with
  | zero => exact absurd (Option.some.inj hj) hb
  | succ j => exact h j hj

theorem EscapesComplete.cons_escape {b : Byte} {bs : List Byte} (h : EscapesComplete bs)
    (hb : b = Config.tfend ∨ b = Config.tfesc) :
    EscapesComplete (Config.fesc :: b :: bs) := fun j hj => by
  cases j with
  | zero => exact hb.imp (congrArg some) (congrArg some)
  | succ j => exact h.cons_of_ne (by obtain rfl | rfl := hb <;> decide) j hj

theorem stuffSeq_escapesComplete (bs : List Byte) : EscapesComplete (stuffSeq bs) := by
  induction bs with
  | nil => exact escapesComplete_nil
  | cons b bs ih =>
    rw [stuffSeq_cons]
    obtain rfl | rfl | ⟨-, hfesc, h⟩ := stuff_cases b
    · exact ih.cons_escape (.inl rfl)
    · exact ih.cons_escape (.inr rfl)
    · rw [h]
      exact ih.cons_of_ne hfesc

/-- Settles O23, byte by byte. -/
theorem stuffedSequencesWellFormed : Obligations.StuffedSequencesWellFormed := fun bs cs =>
  ⟨fend_notMem_stuffSeq bs, stuffSeq_escapesComplete bs, stuffSeq_append bs cs⟩

/-! ### One step of the unstuffer (R112) -/

/-- With no escape pending, only `FESC` is no data byte. -/
theorem unstuffStep_false_of_ne {raw : Byte} (h : raw ≠ Config.fesc) :
    unstuffStep false raw = (false, .data raw) := by
  simp only [unstuffStep, Bool.false_eq_true, if_false, if_neg h]

@[simp] theorem unstuffStep_true_tfend :
    unstuffStep true Config.tfend = (false, .data Config.fend) := rfl

@[simp] theorem unstuffStep_true_tfesc :
    unstuffStep true Config.tfesc = (false, .data Config.fesc) := rfl

theorem unstuffStep_snd (pf : Bool) (raw : Byte) :
    (unstuffStep pf raw).2 = if pf = true then
        if raw = Config.tfend then .data Config.fend
        else if raw = Config.tfesc then .data Config.fesc else .escErr
      else if raw = Config.fesc then .skip else .data raw := by
  unfold unstuffStep
  split_ifs <;> rfl

theorem exec_unstuffStep_of_ne (pf : Bool) {raw : Byte} (h : raw ≠ Config.fend) (s : State) :
    exec (.unstuffStep pf raw) s =
      answer (.unstuffStep (unstuffStep pf raw).1 (unstuffStep pf raw).2) s := by
  change execUnstuffStep pf raw s = _
  simp only [execUnstuffStep, if_neg h]

/-- Settles O19: the flag by `unstuffStep_fst`, the result by `unstuffStep_snd`. -/
theorem unstuffStepByCases : Obligations.UnstuffStepByCases := by
  intro pf raw s h
  rw [exec_unstuffStep_of_ne pf h, unstuffStep_fst, unstuffStep_snd]
  rfl

/-- Settles O21: with a `FEND` in the operand both functions still only answer. -/
theorem unstuffOutsidePreconditionCompletes :
    Obligations.UnstuffOutsidePreconditionCompletes :=
  ⟨fun _ _ => ⟨_, _, rfl⟩, fun _ _ _ => ⟨_, rfl⟩⟩

/-! ### The unstuffer on a sequence (R113) -/

/-- One turn of UNSTUFF_SEQ's loop, on the bytes unstuffed so far and `prev_fesc`; none is a
stuffing error. -/
def unstuffTurn (x : List Byte × Bool) (raw : Byte) : Option (List Byte × Bool) :=
  match (unstuffStep x.2 raw).2 with
  | .escErr => none
  | .skip => some (x.1, (unstuffStep x.2 raw).1)
  | .data v => some (x.1 ++ [v], (unstuffStep x.2 raw).1)

theorem unstuffFrom_cons (pf : Bool) (acc : List Byte) (raw : Byte) (rest : List Byte) :
    unstuffFrom pf acc (raw :: rest) =
      (unstuffTurn (acc, pf) raw).bind fun x => unstuffFrom x.2 x.1 rest := by
  rw [unstuffFrom, unstuffTurn]
  obtain ⟨pf', r⟩ := unstuffStep pf raw
  cases r <;> rfl

theorem unstuffFrom_eq_foldlM (bs : List Byte) (pf : Bool) (acc : List Byte) :
    unstuffFrom pf acc bs = bs.foldlM unstuffTurn (acc, pf) := by
  induction bs generalizing pf acc with
  | nil => rfl
  | cons raw rest ih =>
    rw [unstuffFrom_cons, List.foldlM_cons]
    exact congrArg _ (funext fun x => ih x.2 x.1)

theorem exec_unstuffSeq_of_notMem {bs : List Byte} (h : Config.fend ∉ bs) (s : State) :
    exec (.unstuffSeq bs) s = answer (.unstuffSeq (unstuffSeq bs)) s := by
  change execUnstuffSeq bs s = _
  rw [execUnstuffSeq, if_neg (mt List.mem_of_elem_eq_true h)]

/-- Settles O20, by induction over the sequence from any `prev_fesc` and bytes so far. -/
theorem unstuffSeqIsLoop : Obligations.UnstuffSeqIsLoop := by
  intro bs s h
  rw [exec_unstuffSeq_of_notMem h, unstuffSeq, unstuffFrom_eq_foldlM]
  rfl

/-- The unstuffer takes a stuffed byte back off the front and has no escape pending after it. -/
theorem unstuffFrom_stuff_append (b : Byte) (acc rest : List Byte) :
    unstuffFrom false acc (stuff b ++ rest) = unstuffFrom false (acc ++ [b]) rest := by
  obtain rfl | rfl | ⟨-, hfesc, h⟩ := stuff_cases b
  · rfl
  · rfl
  · rw [h, List.singleton_append, unstuffFrom, unstuffStep_false_of_ne hfesc]

theorem unstuffFrom_stuffSeq (bs acc : List Byte) :
    unstuffFrom false acc (stuffSeq bs) = some (acc ++ bs, false) := by
  induction bs generalizing acc with
  | nil => simp [unstuffFrom]
  | cons b bs ih => rw [stuffSeq_cons, unstuffFrom_stuff_append, ih, List.append_assoc,
      List.singleton_append]

/-- Settles O22, byte by byte from any bytes unstuffed so far. -/
theorem unstuffInvertsStuff : Obligations.UnstuffInvertsStuff := fun bs =>
  unstuffFrom_stuffSeq bs []

/-! ### The rows of an unstuffed byte, one equation per row (R134 to R142) -/

section
variable {s : State}

theorem exec_feedAddr_eq (a : BitVec 7) (hst : s.dec.st = .waitAddrOrCmd) :
    exec (.feedAddr a) s = finishFeed (.ok (armAddr a (beginFeed false s.dec))) s :=
  runArm_of_applies (fun d => .ok (armAddr a (beginFeed false d))) (by simp [rowApplies, hst])

theorem exec_feedCmd0_eq (c : BitVec 7) (hst : s.dec.st = .waitAddrOrCmd) :
    exec (.feedCmd0 c) s = finishFeed (.ok (armCmd (clearBit7 c) (beginFeed false s.dec))) s :=
  runArm_of_applies (fun d => .ok (armCmd (clearBit7 c) (beginFeed false d)))
    (by simp [rowApplies, hst])

theorem exec_feedCmd1_eq (c : BitVec 7) (hst : s.dec.st = .waitCmd) :
    exec (.feedCmd1 c) s = finishFeed (.ok (armCmd (clearBit7 c) (beginFeed false s.dec))) s :=
  runArm_of_applies (fun d => .ok (armCmd (clearBit7 c) (beginFeed false d)))
    (by simp [rowApplies, hst])

theorem exec_feedCmdBad_eq (x : BitVec 7) (hst : s.dec.st = .waitCmd) :
    exec (.feedCmdBad x) s = finishFeed (.ok (armCmdBad (beginFeed false s.dec))) s :=
  runArm_of_applies (fun d => .ok (armCmdBad (beginFeed false d))) (by simp [rowApplies, hst])

theorem exec_feedLen_eq {v : Byte} (hst : s.dec.st = .waitNbt) (hv : v ≤ 128#8) :
    exec (.feedLen v) s = finishFeed (.ok (armLen v (beginFeed false s.dec))) s :=
  runArm_of_applies (fun d => .ok (armLen v (beginFeed false d))) (by simp [rowApplies, hst, hv])

theorem exec_feedLenBad_eq {v : Byte} (hst : s.dec.st = .waitNbt) (hv : 128#8 < v) :
    exec (.feedLenBad v) s = finishFeed (.ok (armLenBad (beginFeed false s.dec))) s :=
  runArm_of_applies (fun d => .ok (armLenBad (beginFeed false d))) (by simp [rowApplies, hst, hv])

theorem exec_feedData_eq (v : Byte) (hst : s.dec.st = .waitData) (hlt : s.dec.cnt < s.dec.len) :
    exec (.feedData v) s = finishFeed (armData v (beginFeed false s.dec)) s :=
  runArm_of_applies (fun d => armData v (beginFeed false d)) (by simp [rowApplies, hst, hlt])

theorem exec_feedCrcOk_eq {v : Byte} (hst : s.dec.st = .waitData)
    (hfull : ¬ s.dec.cnt < s.dec.len) (hv : v = s.dec.crc) :
    exec (.feedCrcOk v) s = finishFeed (.ok (armCrcOk (beginFeed false s.dec))) s :=
  runArm_of_applies (fun d => .ok (armCrcOk (beginFeed false d)))
    (by simp [rowApplies, hst, hfull, hv])

theorem exec_feedCrcBad_eq {v : Byte} (hst : s.dec.st = .waitData)
    (hfull : ¬ s.dec.cnt < s.dec.len) (hv : v ≠ s.dec.crc) :
    exec (.feedCrcBad v) s = finishFeed (.ok (armCrcBad (beginFeed false s.dec))) s :=
  runArm_of_applies (fun d => .ok (armCrcBad (beginFeed false d)))
    (by simp [rowApplies, hst, hfull, hv])

/-- The row that the state selects for an unstuffed byte is the state's arm on that byte; a
command loses bit 7 in the row and gets it back in the arm. -/
theorem exec_selectData (v : Byte) (hst : s.dec.st ≠ .waitFend) :
    exec (selectData s.dec v) s = finishFeed (armOfState v (beginFeed false s.dec)) s := by
  cases h : s.dec.st with
  | waitFend => exact absurd h hst
  | waitAddrOrCmd =>
    rw [armOfState_of_waitAddrOrCmd (d := beginFeed false s.dec) v h]
    simp only [selectData, h]
    split_ifs with hv
    · exact exec_feedAddr_eq _ h
    · rw [exec_feedCmd0_eq _ h, clearBit7_low7 v (Bool.eq_false_of_not_eq_true hv)]
  | waitCmd =>
    rw [armOfState_of_waitCmd (d := beginFeed false s.dec) v h]
    simp only [selectData, h]
    split_ifs with hv
    · exact exec_feedCmdBad_eq _ h
    · rw [exec_feedCmd1_eq _ h, clearBit7_low7 v (Bool.eq_false_of_not_eq_true hv)]
  | waitNbt =>
    rw [armOfState_of_waitNbt (d := beginFeed false s.dec) v h]
    simp only [selectData, h]
    split_ifs with hv
    · exact exec_feedLen_eq h hv
    · exact exec_feedLenBad_eq h (BitVec.not_le.1 hv)
  | waitData =>
    have harm : armOfState v (beginFeed false s.dec) =
        if s.dec.cnt < s.dec.len then armData v (beginFeed false s.dec)
        else .ok (if v = s.dec.crc then armCrcOk (beginFeed false s.dec)
          else armCrcBad (beginFeed false s.dec)) :=
      armOfState_of_waitData (d := beginFeed false s.dec) v h
    rw [harm]
    simp only [selectData, h]
    split_ifs with hlt hcrc
    · exact exec_feedData_eq v h hlt
    · exact exec_feedCrcOk_eq h hlt hcrc
    · exact exec_feedCrcBad_eq h hlt hcrc

/-! ### A completed escape (R112, R133) -/

/-- The state's arm leaves `prev_fesc`, and `len` unless it stores a legal one. -/
theorem armOfState_prevFesc_len {v : Byte} {d e : Decoder} (he : armOfState v d = .ok e) :
    e.prevFesc = d.prevFesc ∧ (e.len = d.len ∨ e.len ≤ 128#8) := by
  cases hst : d.st with
  | waitFend =>
    rw [armOfState_of_waitFend v hst] at he
    exact Except.ok.inj he ▸ ⟨rfl, .inl rfl⟩
  | waitAddrOrCmd | waitCmd =>
    simp only [armOfState, hst, Except.ok.injEq] at he
    rw [← he]
    split_ifs <;> exact ⟨rfl, .inl rfl⟩
  | waitNbt =>
    rw [armOfState_of_waitNbt v hst] at he
    rw [← Except.ok.inj he]
    split_ifs with hv
    · exact ⟨rfl, .inr hv⟩
    · exact ⟨rfl, .inl rfl⟩
  | waitData =>
    rw [armOfState_of_waitData v hst] at he
    split_ifs at he
    · obtain ⟨-, rfl⟩ := armData_eq_ok he
      exact ⟨rfl, .inl rfl⟩
    · exact Except.ok.inj he ▸ ⟨rfl, .inl rfl⟩
    · exact Except.ok.inj he ▸ ⟨rfl, .inl rfl⟩

/-- With a legal `len`, the arm neither stores nor presents an entry beyond the buffer. -/
theorem finishFeed_armOfState_completes {d : Decoder} (hlen : d.len ≤ 128#8) (v : Byte) :
    ∃ t, finishFeed (armOfState v d) s = .next t ∧ t.dec.prevFesc = d.prevFesc := by
  obtain ⟨e, he⟩ := armOfState_completes (BitVec.le_def.1 hlen) v
  obtain ⟨hprev, helen⟩ := armOfState_prevFesc_len he
  have helen' : e.len ≤ 128#8 := helen.elim (fun h => h ▸ hlen) id
  obtain ⟨t, ht⟩ := presentFeed_completes (BitVec.le_def.1 helen') s
  obtain rfl := presentFeed_next ht
  exact ⟨_, (congrArg (finishFeed · s) he).trans ht, hprev⟩

/-- In a frame, a raw byte that unstuffs to `v` goes to the state's arm as `v`. -/
theorem feedByte_of_data {b v : Byte} {d : Decoder} (hb : b ≠ Config.fend)
    (hst : d.st ≠ .waitFend) (hu : unstuffStep d.prevFesc b = (false, .data v)) :
    feedByte b d = armOfState v (beginFeed false d) := by
  simp only [feedByte, if_neg hb, if_neg hst, hu]

theorem exec_feed_of_data {b v : Byte} (hb : b ≠ Config.fend) (hst : s.dec.st ≠ .waitFend)
    (hu : unstuffStep s.dec.prevFesc b = (false, .data v)) :
    exec (.feed b) s = finishFeed (armOfState v (beginFeed false s.dec)) s :=
  congrArg (finishFeed · s) (feedByte_of_data hb hst hu)

variable (hst : s.dec.st ≠ .waitFend) (hesc : s.dec.prevFesc = true)
include hst hesc

theorem exec_feedEscTfend_eq :
    exec .feedEscTfend s = finishFeed (armOfState Config.fend (beginFeed false s.dec)) s :=
  runArm_of_applies (fun d => armOfState Config.fend (beginFeed false d))
    (by simp [rowApplies, hst, hesc])

theorem exec_feedEscTfesc_eq :
    exec .feedEscTfesc s = finishFeed (armOfState Config.fesc (beginFeed false s.dec)) s :=
  runArm_of_applies (fun d => armOfState Config.fesc (beginFeed false d))
    (by simp [rowApplies, hst, hesc])

end

/-- Settles O33: the escape row, FEED and the selected row are all the state's arm on the
unstuffed byte. -/
theorem escapePairIsDataByte : Obligations.EscapePairIsDataByte := by
  intro s hst hesc
  have htfend := exec_feedEscTfend_eq hst hesc
  have htfesc := exec_feedEscTfesc_eq hst hesc
  have hfeedTfend := exec_feed_of_data (b := Config.tfend) (by decide) hst
    (hesc ▸ unstuffStep_true_tfend)
  have hfeedTfesc := exec_feed_of_data (b := Config.tfesc) (by decide) hst
    (hesc ▸ unstuffStep_true_tfesc)
  refine ⟨htfend.trans hfeedTfend.symm, htfesc.trans hfeedTfesc.symm,
    htfend.trans (exec_selectData _ hst).symm, htfesc.trans (exec_selectData _ hst).symm,
    fun hlegal => ?_⟩
  have hlen : (beginFeed false s.dec).len ≤ 128#8 := hlegal.len_le_max
  rw [htfend, htfesc]
  exact ⟨finishFeed_armOfState_completes hlen _, finishFeed_armOfState_completes hlen _⟩

end Sys2Proof.Machine

namespace Sys2Proof.Machine

/-! ### The frame of ENCODE (R120 to R123) -/

theorem exec_encode_of_le (c : Byte) {p : List Byte} (h : p.length ≤ Config.maxPayload)
    (s : State) : exec (.encode c p) s = .next { s with out := .bytes (frameOf c p) } :=
  if_neg (Nat.not_lt.2 h)

theorem exec_encode_of_lt (c : Byte) {p : List Byte} (h : Config.maxPayload < p.length)
    (s : State) :
    exec (.encode c p) s = .next { s with out := .error .encTooLong (some p.length) } :=
  if_pos h

/-- Settles O24: the word by its select, the result by the payload's length. -/
theorem encodeCompletes : Obligations.EncodeCompletes := by
  intro c p s
  refine ⟨?_, fun h => exec_encode_of_le c h s, fun h => exec_encode_of_lt c h s⟩
  change decodeWord (opWordOf 0b011#3 c) p = _
  rw [decodeWord_of_encode p (wordOp_opWordOf _ _), wordData_opWordOf]

/-- The frame with its `FEND` first and its stuffed parts in the order they are fed. -/
theorem frameOf_eq_cons (c : Byte) (p : List Byte) :
    frameOf c p = Config.fend ::
      (stuff c ++ (stuff (lenByte p) ++ (stuffSeq p ++ stuff (crcTx c p)))) := by
  simp only [frameOf, List.append_assoc, List.cons_append, List.nil_append]

section
variable {p : List Byte} (hp : p.length ≤ 128)
include hp

theorem toNat_lenByte : (lenByte p).toNat = p.length := by
  rw [lenByte, BitVec.toNat_ofNat]
  omega

theorem lenByte_le : lenByte p ≤ 128#8 :=
  BitVec.le_def.2 ((toNat_lenByte hp).trans_le hp)

/-- A legal length byte lies below `FEND` and `FESC`, so it is sent as it is. -/
theorem stuff_lenByte : stuff (lenByte p) = [lenByte p] := by
  have hle := lenByte_le hp
  exact stuff_of_ne (fun h => absurd (h ▸ hle) (by decide))
    (fun h => absurd (h ▸ hle) (by decide))

theorem frameOf_length (c : Byte) : (frameOf c p).length =
    1 + (stuff c).length + 1 + (stuffSeq p).length + (stuff (crcTx c p)).length := by
  simp only [frameOf, stuff_lenByte hp, List.length_append, List.length_singleton]

end

theorem fend_notMem_frameOf_tail (c : Byte) (p : List Byte) :
    Config.fend ∉ (frameOf c p).tail := by
  simp only [frameOf_eq_cons, List.tail_cons, List.mem_append, not_or]
  exact ⟨fend_notMem_stuff _, fend_notMem_stuff _, fend_notMem_stuffSeq _, fend_notMem_stuff _⟩

/-- Settles O25: the length from the lengths of the stuffed parts, and no part but the first
holds `FEND`. -/
theorem encodedFrameLength : Obligations.EncodedFrameLength := by
  intro c p hp
  have hlen := frameOf_length hp c
  have hcmd := stuff_length_bounds c
  have hpayload := stuffSeq_length_bounds p
  have hcrc := stuff_length_bounds (crcTx c p)
  exact ⟨hlen, by omega, by omega, by rw [frameOf_eq_cons, List.head?_cons],
    fend_notMem_frameOf_tail c p⟩

/-! ### Runs of FEEDs, one byte and one stuffed byte at a time (R74) -/

section
variable {P : State → Prop} {s t : State}

theorem runFeeds_cons {b : Byte} (hfeed : exec (.feed b) s = .next t) (bs : List Byte) :
    runFeeds (b :: bs) s = runFeeds bs t := by
  rw [runFeeds, hfeed]

theorem FeedsPendingThen.nil (h : P s) : FeedsPendingThen [] s P :=
  ⟨fun _ _ hk => absurd hk (Nat.not_lt_zero _), s, rfl, h⟩

/-- A FEED before a run; it must give PENDING unless its byte is the last. -/
theorem FeedsPendingThen.cons {b : Byte} {bs : List Byte}
    (hfeed : exec (.feed b) s = .next t) (hpending : bs ≠ [] → t.dec.status = .pending)
    (h : FeedsPendingThen bs t P) : FeedsPendingThen (b :: bs) s P := by
  obtain ⟨hbefore, u, hrun, hu⟩ := h
  refine ⟨fun k hk hlt => ?_, u, (runFeeds_cons hfeed bs).trans hrun, hu⟩
  obtain ⟨k, rfl⟩ := Nat.exists_eq_succ_of_ne_zero hk.ne'
  rw [List.take_succ_cons, runFeeds_cons hfeed]
  have hlt' : k < bs.length := Nat.lt_of_succ_lt_succ hlt
  obtain rfl | hk' := Nat.eq_zero_or_pos k
  · exact ⟨t, rfl, hpending (List.ne_nil_of_length_pos hlt')⟩
  · exact hbefore k hk' hlt'

/-- A raw `FEND` before a run starts a frame (R131). -/
theorem FeedsPendingThen.fend_cons {bs : List Byte}
    (h : ∀ t : State, t.dec = armFend s.dec → FeedsPendingThen bs t P) :
    FeedsPendingThen (Config.fend :: bs) s P := by
  have hfeed : feedByte Config.fend s.dec = .ok (armFend s.dec) := rfl
  exact .cons (feedRaw_of_pending hfeed (armFend_status _)) (fun _ => armFend_status _)
    (h _ rfl)

/-- What a FEED answers does not depend on the registers and the output that it replaces. -/
theorem finishFeed_of_fed (r : Except Fault Decoder) (s : State) (d : Decoder) (o : Output) :
    finishFeed r { s with dec := d, out := o } = finishFeed r s := rfl

variable (hst : s.dec.st ≠ .waitFend) (hesc : s.dec.prevFesc = false)
include hst hesc

theorem exec_feed_fesc : exec (.feed Config.fesc) s = .next
    { s with dec := beginFeed true s.dec, out := .feed .pending .none none } := by
  have hfeed : feedByte Config.fesc s.dec = .ok (beginFeed true s.dec) := by
    simp [feedByte, unstuffStep, hst, hesc]
  exact feedRaw_of_pending hfeed (beginFeed_status _ _)

/-- In a frame, FEEDing `FESC` and a byte that completes the escape is the state's arm on the
unstuffed byte: the second byte writes anew whatever the first has written. -/
theorem FeedsPendingThen.escape_cons {b v : Byte} {bs : List Byte} (hb : b ≠ Config.fend)
    (hu : unstuffStep true b = (false, .data v))
    (harm : finishFeed (armOfState v (beginFeed false s.dec)) s = .next t)
    (hpending : bs ≠ [] → t.dec.status = .pending) (h : FeedsPendingThen bs t P) :
    FeedsPendingThen (Config.fesc :: b :: bs) s P := by
  refine .cons (exec_feed_fesc hst hesc) (fun _ => rfl) (.cons ?_ hpending h)
  exact (exec_feed_of_data (s := { s with dec := beginFeed true s.dec, out := _ }) hb hst hu).trans
    ((finishFeed_of_fed _ s _ _).trans harm)

/-- In a frame, FEEDing the stuffed form of `v` is the state's arm on `v` (R112, R133). -/
theorem FeedsPendingThen.stuff_append {v : Byte} {bs : List Byte}
    (harm : finishFeed (armOfState v (beginFeed false s.dec)) s = .next t)
    (hpending : bs ≠ [] → t.dec.status = .pending) (h : FeedsPendingThen bs t P) :
    FeedsPendingThen (stuff v ++ bs) s P := by
  obtain rfl | rfl | ⟨hfend, hfesc, hv⟩ := stuff_cases v
  · exact .escape_cons hst hesc (by decide) unstuffStep_true_tfend harm hpending h
  · exact .escape_cons hst hesc (by decide) unstuffStep_true_tfesc harm hpending h
  · have hu : unstuffStep s.dec.prevFesc v = (false, .data v) := by
      rw [hesc, unstuffStep_false_of_ne hfesc]
    rw [hv]
    exact .cons ((exec_feed_of_data hfend hst hu).trans harm) hpending h

/-- The same for an arm that leaves `status` PENDING, as every arm but the CRC's does. -/
theorem FeedsPendingThen.stuff_append_of_pending {v : Byte} {bs : List Byte} {e : Decoder}
    (harm : armOfState v (beginFeed false s.dec) = .ok e) (hpending : e.status = .pending)
    (h : ∀ t : State, t.dec = e → FeedsPendingThen bs t P) :
    FeedsPendingThen (stuff v ++ bs) s P := by
  have hfinish := (congrArg (finishFeed · s) harm).trans (presentFeed_of_pending s hpending)
  exact .stuff_append hst hesc hfinish (fun _ => hpending) (h _ rfl)

end

/-! ### The header of a frame (R122, R131, R134, R135, R138) -/

/-- Settles O27: `FEND`, then the address arm on the command byte. -/
theorem highCommandReadAsAddress : Obligations.HighCommandReadAsAddress := by
  intro c p s hc _
  have hrun : FeedsPendingThen (Config.fend :: (stuff c ++ [])) s fun t =>
      t.dec.st = .waitCmd ∧ t.dec.hasAddr = true ∧ t.dec.addr = low7 c ∧ t.dec.cmd = 0#8 ∧
        t.dec.status = .pending := by
    refine .fend_cons fun t ht => ?_
    have harm : armOfState c (beginFeed false t.dec) =
        .ok (armAddr (low7 c) (beginFeed false t.dec)) := by
      rw [armOfState_of_waitAddrOrCmd c (by simp [ht]), if_pos hc]
    exact .stuff_append_of_pending (by simp [ht]) (by simp [ht]) harm (by simp)
      fun u hu => .nil (by simp [hu, ht])
  rw [List.append_nil] at hrun
  exact ⟨⟨_, (frameOf_eq_cons c p).symm⟩, hrun.2⟩

/-! ### The payload and the CRC of a frame without an address (R124) -/

/-- In the payload of a frame without an address: the header was command `c` and length `n`,
and the payload bytes fed since are `q`. -/
structure InPayload (c : Byte) (n : Nat) (q : List Byte) (d : Decoder) : Prop where
  st_eq : d.st = .waitData
  status_eq : d.status = .pending
  prevFesc_eq : d.prevFesc = false
  hasAddr_eq : d.hasAddr = false
  addr_eq : d.addr = 0#7
  cmd_eq : d.cmd = c
  len_eq : d.len = BitVec.ofNat 8 n
  cnt_eq : d.cnt = BitVec.ofNat 8 q.length
  buf_eq : bufSlice d q.length = q
  crc_eq : d.crc = crc8Seq Config.crcInit ([Config.fend, c, BitVec.ofNat 8 n] ++ q)

/-- The header of `frameOf` leaves the decoder before the first payload byte. -/
theorem inPayload_nil (c : Byte) (n : Nat) (d : Decoder) :
    InPayload c n [] (armLen (BitVec.ofNat 8 n) (beginFeed false
      (armCmd c (beginFeed false (armFend d))))) where
  st_eq := rfl
  status_eq := rfl
  prevFesc_eq := rfl
  hasAddr_eq := rfl
  addr_eq := rfl
  cmd_eq := rfl
  len_eq := rfl
  cnt_eq := rfl
  buf_eq := rfl
  crc_eq := rfl

theorem FeedsPendingThen.header_append {c : Byte} {p bs : List Byte} {s : State}
    {P : State → Prop} (hc : bit7 c = false) (hp : p.length ≤ 128)
    (h : ∀ t : State, InPayload c p.length [] t.dec → FeedsPendingThen bs t P) :
    FeedsPendingThen (Config.fend :: (stuff c ++ (stuff (lenByte p) ++ bs))) s P := by
  refine .fend_cons fun t ht => ?_
  refine .stuff_append_of_pending (by simp [ht]) (by simp [ht])
    (armOfState_of_command hc (.inl (by simp [ht]))) (by simp) fun u hu => ?_
  have hlen : armOfState (lenByte p) (beginFeed false u.dec) =
      .ok (armLen (lenByte p) (beginFeed false u.dec)) := by
    rw [armOfState_of_waitNbt _ (by simp [hu]), if_pos (lenByte_le hp)]
  refine .stuff_append_of_pending (by simp [hu]) (by simp [hu, ht]) hlen (by simp)
    fun w hw => h w ?_
  rw [hw, hu, ht]
  exact inPayload_nil c p.length s.dec

section
variable {c : Byte} {n : Nat} {q : List Byte} {d : Decoder} (h : InPayload c n q d)
include h

theorem InPayload.toNat_cnt (hq : q.length ≤ 128) : d.cnt.toNat = q.length := by
  rw [h.cnt_eq, BitVec.toNat_ofNat]
  omega

theorem InPayload.toNat_len (hn : n ≤ 128) : d.len.toNat = n := by
  rw [h.len_eq, BitVec.toNat_ofNat]
  omega

theorem InPayload.cnt_lt_len_iff (hq : q.length ≤ n) (hn : n ≤ 128) :
    d.cnt < d.len ↔ q.length < n := by
  rw [BitVec.lt_def, h.toNat_cnt (hq.trans hn), h.toNat_len hn]

/-- `FEED_DATA` appends its byte to the payload read (R140). -/
theorem InPayload.of_armData (hlt : d.cnt < d.len) (hq : q.length ≤ 128) {v : Byte}
    {e : Decoder} (he : armData v (beginFeed false d) = .ok e) :
    InPayload c n (q ++ [v]) e := by
  have hcnt := h.toNat_cnt hq
  have heffect : BufEffect d e :=
    (armData_bufEffect (d := beginFeed false d) h.st_eq hlt he).of_beginFeed
  have hbelow : bufSlice e q.length = q :=
    (bufSlice_congr fun i hi => heffect.bufRead_other (hcnt ▸ hi.ne)).trans h.buf_eq
  obtain ⟨-, rfl⟩ := armData_eq_ok he
  refine { h with
    status_eq := rfl, prevFesc_eq := rfl, cnt_eq := ?cnt_eq, buf_eq := ?buf_eq,
    crc_eq := ?crc_eq }
  case cnt_eq =>
    change d.cnt + 1#8 = _
    rw [h.cnt_eq, List.length_append, List.length_singleton, BitVec.ofNat_add]
  case buf_eq =>
    rw [List.length_append, List.length_singleton, bufSlice_succ, hbelow, bufRead_of_read]
    rw [beginFeed_cnt, hcnt, Memory.read_write_same]
  case crc_eq =>
    change crc8Step d.crc v = _
    rw [← List.append_assoc, crc8Seq_snoc, h.crc_eq]

theorem InPayload.armOfState_data (hq : q.length < n) (hn : n ≤ 128) (v : Byte) :
    ∃ e, armOfState v (beginFeed false d) = .ok e ∧ InPayload c n (q ++ [v]) e := by
  have hcnt : (beginFeed false d).cnt.toNat < Config.maxPayload :=
    (h.toNat_cnt (hq.le.trans hn)).trans_lt (hq.trans_le hn)
  have hlt : d.cnt < d.len := (h.cnt_lt_len_iff hq.le hn).2 hq
  have hdata := armData_ok v hcnt
  exact ⟨_, (armOfState_of_waitData (d := beginFeed false d) v h.st_eq).trans
    ((if_pos hlt).trans hdata), h.of_armData hlt (hq.le.trans hn) hdata⟩

/-- The CRC byte that matches ends the frame (R141). -/
theorem InPayload.armOfState_crc (hq : q.length = n) (hn : n ≤ 128) :
    armOfState d.crc (beginFeed false d) = .ok (armCrcOk (beginFeed false d)) := by
  have hfull : ¬ d.cnt < d.len := fun hlt => ((h.cnt_lt_len_iff hq.le hn).1 hlt).ne hq
  exact (armOfState_of_waitData (d := beginFeed false d) d.crc h.st_eq).trans
    ((if_neg hfull).trans (congrArg _ (if_pos rfl)))

theorem InPayload.payload_eq (hq : q.length = n) (hn : n ≤ 128) : payload d = q := by
  rw [payload, h.toNat_len hn, ← hq, h.buf_eq]

end

/-- Payload bytes before a run, from any part of the payload read so far. -/
theorem FeedsPendingThen.payload_append {c : Byte} {n : Nat} {q r bs : List Byte} {s : State}
    {P : State → Prop} (hs : InPayload c n q s.dec) (hlen : (q ++ r).length = n) (hn : n ≤ 128)
    (h : ∀ t : State, InPayload c n (q ++ r) t.dec → FeedsPendingThen bs t P) :
    FeedsPendingThen (stuffSeq r ++ bs) s P := by
  induction r generalizing q s with
  | nil => exact h s (by rwa [List.append_nil])
  | cons v r ih =>
    have happend : q ++ v :: r = q ++ [v] ++ r := by rw [List.append_assoc, List.singleton_append]
    have hroom : q.length < n := by
      rw [← hlen, List.length_append, List.length_cons]
      omega
    obtain ⟨e, harm, he⟩ := hs.armOfState_data hroom hn v
    rw [happend] at h hlen
    rw [stuffSeq_cons, List.append_assoc]
    exact .stuff_append_of_pending (by simp [hs.st_eq]) hs.prevFesc_eq harm he.status_eq
      fun t ht => ih (ht ▸ he) hlen h

/-- The frame's last byte presents the event with the whole payload (R141, R144). -/
theorem InPayload.feedsPendingThen_crc {c : Byte} {p : List Byte} {s : State}
    (h : InPayload c p.length p s.dec) (hp : p.length ≤ 128) :
    FeedsPendingThen (stuff (crcTx c p)) s fun t =>
      t.dec.st = .waitFend ∧ t.dec.status = .complete ∧
      t.out = .feed .complete .none (some
        { kind := .complete, hasAddr := false, addr := 0#7, cmd := c,
          len := BitVec.ofNat 8 p.length, payload := p }) := by
  have hlen : (armCrcOk (beginFeed false s.dec)).len.toNat ≤ Config.maxPayload :=
    (h.toNat_len hp).trans_le hp
  obtain ⟨t, ht⟩ := presentFeed_completes hlen s
  have harm : finishFeed (armOfState (crcTx c p) (beginFeed false s.dec)) s = .next t := by
    have hcrc : crcTx c p = s.dec.crc := h.crc_eq.symm
    rw [hcrc, h.armOfState_crc rfl hp]
    exact ht
  have hpayload : payload (endFrame .complete .none (beginFeed false s.dec)) = p :=
    h.payload_eq rfl hp
  obtain rfl := presentFeed_next ht
  rw [← List.append_nil (stuff (crcTx c p))]
  refine .stuff_append (by simp [h.st_eq]) h.prevFesc_eq harm (absurd rfl) (.nil ?_)
  simp [hpayload, eventOf, armCrcOk, h.hasAddr_eq, h.addr_eq, h.cmd_eq, h.len_eq]

/-- Settles O26: `FEND` forgets the state before it; then header, payload and CRC in the order
of the frame. -/
theorem encodedFrameRoundTrips : Obligations.EncodedFrameRoundTrips := by
  intro c p s hc hp
  rw [frameOf_eq_cons]
  exact .header_append hc hp fun _ hheader =>
    .payload_append hheader rfl hp fun _ hpayload => hpayload.feedsPendingThen_crc hp

end Sys2Proof.Machine

namespace Sys2Proof.Machine

/-! ### The rows of a raw byte, one equation per row (R131 to R133) -/

section
variable {b : Byte} {s : State}

theorem exec_feedFend_eq (s : State) :
    exec .feedFend s = finishFeed (.ok (armFend s.dec)) s :=
  runArm_of_applies (i := .feedFend) (fun d => .ok (armFend d)) rfl

theorem exec_feedDiscard_eq (hst : s.dec.st = .waitFend) (hb : b ≠ Config.fend) :
    exec (.feedDiscard b) s = finishFeed (.ok (beginFeed (fescFlag b) s.dec)) s :=
  runArm_of_applies (fun d => .ok (beginFeed (fescFlag b) d)) (by simp [rowApplies, hst, hb])

theorem exec_feedEscBegin_eq (hst : s.dec.st ≠ .waitFend) (hesc : s.dec.prevFesc = false) :
    exec .feedEscBegin s = finishFeed (.ok (beginFeed true s.dec)) s :=
  runArm_of_applies (fun d => .ok (beginFeed true d)) (by simp [rowApplies, hst, hesc])

theorem exec_feedEscErr_eq (hst : s.dec.st ≠ .waitFend) (hesc : s.dec.prevFesc = true)
    (htfend : b ≠ Config.tfend) (htfesc : b ≠ Config.tfesc) (hfend : b ≠ Config.fend) :
    exec (.feedEscErr b) s = finishFeed (.ok (armEscErr (beginFeed (fescFlag b) s.dec))) s :=
  runArm_of_applies (fun d => .ok (armEscErr (beginFeed (fescFlag b) d)))
    (by simp [rowApplies, hst, hesc, htfend, htfesc, hfend])

/-! ### FEED's dispatch, outside and inside a frame (R130) -/

/-- What FEED does with the unstuffer's result on `b`, in a frame. -/
def armOfUnstuffed : Unstuffed → Decoder → Except Fault Decoder
  | .skip, d => .ok d
  | .escErr, d => .ok (armEscErr d)
  | .data v, d => armOfState v d

theorem feedByte_of_waitFend {b : Byte} {d : Decoder} (hb : b ≠ Config.fend)
    (hst : d.st = .waitFend) : feedByte b d = .ok (beginFeed (fescFlag b) d) := by
  simp only [feedByte, if_neg hb, if_pos hst, unstuffStep_fst]

theorem feedByte_in_frame {b : Byte} {d : Decoder} (hb : b ≠ Config.fend)
    (hst : d.st ≠ .waitFend) : feedByte b d =
      armOfUnstuffed (unstuffStep d.prevFesc b).2 (beginFeed (fescFlag b) d) := by
  simp only [feedByte, if_neg hb, if_neg hst, unstuffStep_fst]
  cases (unstuffStep d.prevFesc b).2 <;> rfl

/-! ### FEED of a raw byte is the row of that byte (R130, R182) -/

theorem exec_feed_eq_feedFend (s : State) : exec (.feed Config.fend) s = exec .feedFend s :=
  (exec_feedFend_eq s).symm

theorem exec_feed_eq_feedDiscard (hst : s.dec.st = .waitFend) (hb : b ≠ Config.fend) :
    exec (.feed b) s = exec (.feedDiscard b) s :=
  (congrArg (finishFeed · s) (feedByte_of_waitFend hb hst)).trans
    (exec_feedDiscard_eq hst hb).symm

theorem exec_feed_eq_feedEscBegin (hst : s.dec.st ≠ .waitFend) (hesc : s.dec.prevFesc = false) :
    exec (.feed Config.fesc) s = exec .feedEscBegin s :=
  (exec_feed_fesc hst hesc).trans (exec_feedEscBegin_eq hst hesc).symm

theorem unstuffStep_true_of_ne (htfend : b ≠ Config.tfend) (htfesc : b ≠ Config.tfesc) :
    (unstuffStep true b).2 = .escErr := by
  simp only [unstuffStep_snd, if_pos, if_neg htfend, if_neg htfesc]

theorem exec_feed_eq_feedEscErr (hst : s.dec.st ≠ .waitFend) (hesc : s.dec.prevFesc = true)
    (htfend : b ≠ Config.tfend) (htfesc : b ≠ Config.tfesc) (hfend : b ≠ Config.fend) :
    exec (.feed b) s = exec (.feedEscErr b) s := by
  have hfeed := feedByte_in_frame hfend hst
  rw [hesc, unstuffStep_true_of_ne htfend htfesc] at hfeed
  exact (congrArg (finishFeed · s) hfeed).trans
    (exec_feedEscErr_eq hst hesc htfend htfesc hfend).symm

end

/-! ### What each arm leaves in the registers and presents (R131 to R142) -/

theorem finishFeed_of_pending {d : Decoder} (s : State) (h : d.status = .pending) :
    finishFeed (.ok d) s = .next { s with dec := d, out := .feed d.status d.cause none } :=
  presentFeed_of_pending s h

theorem exec_feed_fend (s : State) : exec (.feed Config.fend) s = .next
    { s with dec := armFend s.dec, out := .feed .pending (fendCause s.dec.st) none } :=
  finishFeed_of_pending s (armFend_status s.dec)

/-- The accumulator after `FEND` (R131). -/
theorem crc8Step_init_fend : crc8Step Config.crcInit Config.fend = 0xCA#8 := by decide

/-- Settles O30: `FEED_FEND` has no condition but the byte. -/
theorem fendStartsFrame : Obligations.FendStartsFrame := by
  intro s
  refine ⟨_, (exec_feed_eq_feedFend s).symm.trans (exec_feed_fend s), exec_feed_fend s, ?_,
    crc8Step_init_fend⟩
  simp only [armFend, fendCause, ite_not]

/-- Settles O31: outside a frame FEED is `beginFeed` alone. -/
theorem bytesOutsideFrameDiscarded : Obligations.BytesOutsideFrameDiscarded := fun _ s hst hb =>
  ⟨(exec_feed_eq_feedDiscard hst hb).symm,
    (exec_feedDiscard_eq hst hb).trans (finishFeed_of_pending s (beginFeed_status _ _))⟩

/-- Settles O32: by `prev_fesc`, `FEED_ESC_BEGIN` or `FEED_ESC_ERR`. -/
theorem escapeBeginsOrAbandons : Obligations.EscapeBeginsOrAbandons := by
  intro s hst
  refine ⟨fun hesc => ⟨(exec_feed_eq_feedEscBegin hst hesc).symm, ?_⟩,
    fun hesc b htfend htfesc hfend =>
      ⟨(exec_feed_eq_feedEscErr hst hesc htfend htfesc hfend).symm, ?_⟩⟩
  · exact (exec_feedEscBegin_eq hst hesc).trans (finishFeed_of_pending s (beginFeed_status _ _))
  · exact (exec_feedEscErr_eq hst hesc htfend htfesc hfend).trans
      (finishFeed_of_pending s (abandon_status _ _))

/-- Settles O34: the row is `armAddr` after `beginFeed`. -/
theorem addressByteLatched : Obligations.AddressByteLatched := fun a s hst =>
  (exec_feedAddr_eq a hst).trans (finishFeed_of_pending s rfl)

/-- Settles O35: both rows are the arm `armCmd`. -/
theorem commandByteStored : Obligations.CommandByteStored := by
  rintro c s i (⟨hst, rfl⟩ | ⟨hst, rfl⟩)
  · exact (exec_feedCmd0_eq c hst).trans (finishFeed_of_pending s rfl)
  · exact (exec_feedCmd1_eq c hst).trans (finishFeed_of_pending s rfl)

/-- Settles O36: the row is `armLen` after `beginFeed`. -/
theorem lengthByteStored : Obligations.LengthByteStored := fun _ s hst hv =>
  (exec_feedLen_eq hst (BitVec.le_def.2 hv)).trans (finishFeed_of_pending s rfl)

/-- Settles O37: both rows abandon the frame. -/
theorem malformedHeaderAbandons : Obligations.MalformedHeaderAbandons :=
  ⟨fun x s hst =>
      (exec_feedCmdBad_eq x hst).trans (finishFeed_of_pending s (abandon_status _ _)),
    fun _ s hst hv => (exec_feedLenBad_eq hst (BitVec.lt_def.2 hv)).trans
      (finishFeed_of_pending s (abandon_status _ _))⟩

/-- Settles O38: entry `cnt` exists, as `cnt` is below a legal `len`. -/
theorem payloadByteStored : Obligations.PayloadByteStored := by
  intro v s hst hlt hlen
  have hentry : (beginFeed false s.dec).cnt.toNat < Config.maxPayload :=
    Nat.lt_of_lt_of_le (BitVec.lt_def.1 hlt) (BitVec.le_def.1 hlen)
  refine ⟨Memory.write s.dec.buf s.dec.cnt.toNat v, ?_, Memory.read_write_same _ _ v,
    fun _ hj => Memory.read_write_other _ v hj⟩
  rw [exec_feedData_eq v hst hlt, armData_ok v hentry]
  exact finishFeed_of_pending s rfl

/-- A CRC result with a legal `len` presents the event with the whole payload (R144). -/
theorem finishFeed_endFrame {k : Status} (c : Cause) {d : Decoder} (s : State)
    (hk : k ≠ .pending) (hlen : d.len ≤ 128#8) :
    finishFeed (.ok (endFrame k c d)) s = .next { s with
      dec := endFrame k c d
      out := .feed k c (some (eventOf (endFrame k c d) (payload (endFrame k c d)))) } :=
  (if_neg hk).trans (withPayload_of_le _ (BitVec.le_def.1 hlen))

/-- Settles O39: with the payload full, the comparison with `crc` decides between the rows. -/
theorem crcByteEndsFrame : Obligations.CrcByteEndsFrame := by
  intro v s hst hcnt hlen
  have hfull : ¬ s.dec.cnt < s.dec.len := hcnt ▸ BitVec.lt_irrefl _
  exact ⟨fun hv => (exec_feedCrcOk_eq hst hfull hv).trans
      (finishFeed_endFrame (d := beginFeed false s.dec) .none s (by decide) hlen),
    fun hv => (exec_feedCrcBad_eq hst hfull hv).trans
      (finishFeed_endFrame (d := beginFeed false s.dec) .crcMismatch s (by decide) hlen)⟩

/-! ### NOP and READ (R146, R147) -/

/-- Settles O45: the word by its select; the meaning only answers. -/
theorem nopCompletes : Obligations.NopCompletes := by
  refine fun data s => ⟨fun p => ?_, rfl⟩
  change decodeWord (opWordOf 0b000#3 data) p = _
  rw [decodeWord_of_nop p (wordOp_opWordOf _ _), wordData_opWordOf]

theorem exec_read_outside_window {i : Byte} {s : State}
    (h : s.dec.status = .pending ∨ s.dec.len ≤ i) :
    exec (.read i) s = answer (.byte (Config.readAny s.draws i)) s :=
  if_pos h

/-- Settles O46, inside and outside the window. -/
theorem readByWindow : Obligations.ReadByWindow := by
  refine fun i s hlen => ⟨fun p => ?_, exec_read_in_window hlen,
    fun hout => ⟨_, exec_read_outside_window hout⟩⟩
  change decodeWord (opWordOf 0b100#3 i) p = _
  rw [decodeWord_of_read p (wordOp_opWordOf _ _), wordData_opWordOf]

/-! ### FEED is the arm its dispatch selects (R130, R182) -/

/-- In a frame, the state's tests are the conditions of the row they select. -/
theorem rowApplies_selectData {d : Decoder} (v : Byte) (hst : d.st ≠ .waitFend) :
    rowApplies d (selectData d v) = true := by
  cases h : d.st with
  | waitFend => exact absurd h hst
  | waitAddrOrCmd | waitCmd =>
    simp only [selectData, h]
    split_ifs <;> simp [rowApplies, h]
  | waitNbt =>
    simp only [selectData, h]
    split_ifs with hv
    · simp [rowApplies, h, hv]
    · simp [rowApplies, h, BitVec.not_le.1 hv]
  | waitData =>
    simp only [selectData, h]
    split_ifs with hlt hcrc
    · simp [rowApplies, h, hlt]
    · simp [rowApplies, h, hlt, hcrc]
    · simp [rowApplies, h, hlt, hcrc]

/-- Settles O28, in the order of R182: `FEND`, outside a frame, after an escape, an escape
begun, and the state's own byte. -/
theorem feedRunsSelectedArm : Obligations.FeedRunsSelectedArm := by
  intro b s
  simp only [selectRaw]
  split_ifs with hfend hst hesc htfend htfesc hfesc
  · exact hfend ▸ ⟨rfl, exec_feed_eq_feedFend s⟩
  · exact ⟨by simp [rowApplies, hst, hfend], exec_feed_eq_feedDiscard hst hfend⟩
  · obtain ⟨hfeed, -⟩ := escapePairIsDataByte s hst hesc
    exact htfend ▸ ⟨by simp [rowApplies, hst, hesc], hfeed.symm⟩
  · obtain ⟨-, hfeed, -⟩ := escapePairIsDataByte s hst hesc
    exact htfesc ▸ ⟨by simp [rowApplies, hst, hesc], hfeed.symm⟩
  · exact ⟨by simp [rowApplies, hst, hesc, htfend, htfesc, hfend],
      exec_feed_eq_feedEscErr hst hesc htfend htfesc hfend⟩
  · have hesc' := Bool.eq_false_of_not_eq_true hesc
    exact hfesc ▸ ⟨by simp [rowApplies, hst, hesc'], exec_feed_eq_feedEscBegin hst hesc'⟩
  · have hu : unstuffStep s.dec.prevFesc b = (false, .data b) := by
      rw [Bool.eq_false_of_not_eq_true hesc, unstuffStep_false_of_ne hfesc]
    exact ⟨rowApplies_selectData b hst,
      (exec_feed_of_data hfend hst hu).trans (exec_selectData b hst).symm⟩

/-! ### FEED completes with a legal `len` (R143, R144) -/

/-- No arm of FEED stores a `len` above 128. -/
theorem feedByte_len_le {b : Byte} {d e : Decoder} (hlen : d.len ≤ 128#8)
    (he : feedByte b d = .ok e) : e.len ≤ 128#8 := by
  obtain ⟨-, h⟩ | ⟨-, -, h⟩ | ⟨-, -, -, h⟩ | ⟨-, -, -, h⟩ | ⟨-, -, v, -, h⟩ :=
    feedByte_cases b d <;> rw [h] at he
  · exact Except.ok.inj he ▸ BitVec.le_def.2 (Nat.zero_le _)
  · exact Except.ok.inj he ▸ hlen
  · exact Except.ok.inj he ▸ hlen
  · exact Except.ok.inj he ▸ hlen
  · obtain ⟨-, hkept | hlegal⟩ := armOfState_prevFesc_len he
    · exact hkept ▸ hlen
    · exact hlegal

theorem finishFeed_completes {d : Decoder} (hlen : d.len ≤ 128#8) (s : State) :
    finishFeed (.ok d) s = .next { s with
      dec := d
      out := .feed d.status d.cause
        (if d.status = .pending then none else some (eventOf d (payload d))) } := by
  obtain ⟨t, ht⟩ := presentFeed_completes (BitVec.le_def.1 hlen) s
  exact ht.trans (congrArg _ (presentFeed_next ht))

theorem exec_cmdTelemetry_eq_feed (s : State) :
    exec .cmdTelemetry s = exec (.feed Config.telemCmd) s := rfl

theorem exec_cmdInvalidSentinel_eq_feed (s : State) :
    exec .cmdInvalidSentinel s = exec (.feed Config.invalidCmd) s := rfl

/-- Settles O29: of a legal state, only the bound on `len` is needed. -/
theorem feedCompletesInLegalStates : Obligations.FeedCompletesInLegalStates := by
  intro b s hlegal
  obtain ⟨d, hd⟩ := feedByte_completes (BitVec.le_def.1 hlegal.len_le_max) b
  have hfeed : exec (.feed b) s = _ := (congrArg (finishFeed · s) hd).trans
    (finishFeed_completes (feedByte_len_le hlegal.len_le_max hd) s)
  refine ⟨_, hfeed, ?_, ?_, rfl⟩
  · rintro rfl
    exact (exec_cmdTelemetry_eq_feed s).trans hfeed
  · rintro rfl
    exact (exec_cmdInvalidSentinel_eq_feed s).trans hfeed

end Sys2Proof.Machine

namespace Sys2Proof.Machine

/-! ### Two decoders in the same frame, with different leftovers in their buffers (R149) -/

/-- `d` with other contents of the payload buffer. -/
def Decoder.withBuf (m : Memory) (n : Nat) (d : Decoder) : Decoder :=
  { d with buf := m, bufEpoch := n }

/-- `e` differs from `d` in the payload buffer alone, and there only in entries that the frame
has not stored; an event has its whole payload. -/
structure SameFrame (d e : Decoder) : Prop where
  eq_withBuf : e = d.withBuf e.buf e.bufEpoch
  cnt_le_len : d.cnt ≤ d.len
  len_le_max : d.len ≤ 128#8
  stored : ∀ i < d.cnt.toNat, bufRead d i = bufRead e i
  event_full : d.status ≠ .pending → d.cnt = d.len

/-- After `FEND` nothing is stored yet, so besides the buffer only `cause` can tell the states
before apart (log 24). -/
theorem sameFrame_armFend (d e : Decoder) :
    SameFrame { armFend d with cause := fendCause e.st } (armFend e) where
  eq_withBuf := rfl
  cnt_le_len := BitVec.le_refl 0#8
  len_le_max := BitVec.le_def.2 (Nat.zero_le _)
  stored _ hi := absurd hi (Nat.not_lt_zero _)
  event_full _ := rfl

/-- Of the registers, `cause` is read by no FEED, and neither is the output. -/
theorem exec_feed_of_cause (b : Byte) (s : State) (c : Cause) (o : Output) :
    exec (.feed b) { s with dec := { s.dec with cause := c }, out := o } = exec (.feed b) s := rfl

section
variable {d e : Decoder} (h : SameFrame d e)
include h

theorem SameFrame.sameButBufAndCause : SameButBufAndCause d e := by
  rw [h.eq_withBuf]
  exact ⟨rfl, rfl, rfl, rfl, rfl, rfl, rfl, rfl, rfl⟩

theorem SameFrame.cause_eq : d.cause = e.cause := by
  rw [h.eq_withBuf]
  rfl

theorem SameFrame.after_armFend : SameFrame (armFend d) (armFend e) := by
  have hcause : fendCause e.st = fendCause d.st := by
    rw [h.eq_withBuf]
    rfl
  have hsame := sameFrame_armFend d e
  rwa [hcause] at hsame

theorem SameFrame.after_beginFeed (pf : Bool) : SameFrame (beginFeed pf d) (beginFeed pf e) :=
  { h with
    eq_withBuf := congrArg (beginFeed pf) h.eq_withBuf
    event_full := absurd rfl }

theorem SameFrame.after_abandon (c : Cause) : SameFrame (abandon c d) (abandon c e) :=
  { h with
    eq_withBuf := congrArg (abandon c) h.eq_withBuf
    event_full := absurd rfl }

theorem SameFrame.after_armAddr (a : BitVec 7) : SameFrame (armAddr a d) (armAddr a e) :=
  { h with eq_withBuf := congrArg (armAddr a) h.eq_withBuf }

theorem SameFrame.after_armCmd (v : Byte) : SameFrame (armCmd v d) (armCmd v e) :=
  { h with eq_withBuf := congrArg (armCmd v) h.eq_withBuf }

/-- The CRC byte stands after the whole payload. -/
theorem SameFrame.after_endFrame (k : Status) (c : Cause) (hfull : ¬ d.cnt < d.len) :
    SameFrame (endFrame k c d) (endFrame k c e) :=
  { h with
    eq_withBuf := congrArg (endFrame k c) h.eq_withBuf
    event_full := fun _ => BitVec.le_antisymm h.cnt_le_len (BitVec.not_lt.1 hfull) }

/-- The payload that an event presents was stored by the frame. -/
theorem SameFrame.payload_eq (hevent : d.status ≠ .pending) : payload d = payload e := by
  have hlen : e.len = d.len := by
    rw [h.eq_withBuf]
    rfl
  rw [payload, payload, hlen, ← h.event_full hevent]
  exact bufSlice_congr h.stored

theorem SameFrame.eventOf_eq (hevent : d.status ≠ .pending) :
    eventOf d (payload d) = eventOf e (payload e) := by
  rw [← h.payload_eq hevent, h.eq_withBuf]
  rfl

variable (hpending : d.status = .pending)
include hpending

theorem SameFrame.after_armLen {v : Byte} (hv : v ≤ 128#8) :
    SameFrame (armLen v d) (armLen v e) where
  eq_withBuf := congrArg (armLen v) h.eq_withBuf
  cnt_le_len := BitVec.le_def.2 (Nat.zero_le _)
  len_le_max := hv
  stored _ hi := absurd hi (Nat.not_lt_zero _)
  event_full hevent := absurd hpending hevent

/-- Both buffers get the byte at the same entry. -/
theorem SameFrame.after_armData (v : Byte) (hlt : d.cnt < d.len) :
    ∃ d' e', armData v d = .ok d' ∧ armData v e = .ok e' ∧ SameFrame d' e' := by
  have hcnt : e.cnt = d.cnt := by
    rw [h.eq_withBuf]
    rfl
  have hlen := h.len_le_max
  have hsucc : (d.cnt + 1#8).toNat = d.cnt.toNat + 1 := by bv_omega
  have hentry : d.cnt.toNat < Config.maxPayload :=
    Nat.lt_of_lt_of_le (BitVec.lt_def.1 hlt) (BitVec.le_def.1 hlen)
  refine ⟨_, _, armData_ok v hentry, armData_ok v (hcnt ▸ hentry), ?_, ?_, hlen, ?_,
    absurd hpending⟩
  · rw [h.eq_withBuf]
    rfl
  · change d.cnt + 1#8 ≤ d.len
    bv_omega
  · intro i hi
    change i < (d.cnt + 1#8).toNat at hi
    rw [hcnt]
    by_cases heq : i = d.cnt.toNat
    · subst heq
      rw [bufRead_of_read (Memory.read_write_same _ _ v),
        bufRead_of_read (Memory.read_write_same _ _ v)]
    · have hstored := h.stored i (by omega)
      simpa only [bufRead, Memory.read_write_other _ v heq] using hstored

/-- Every test of the state's arm is on a register that the two share. -/
theorem SameFrame.after_armOfState (v : Byte) :
    ∃ d' e', armOfState v d = .ok d' ∧ armOfState v e = .ok e' ∧ SameFrame d' e' := by
  obtain ⟨hst, hcrc, -, -, -, -, hlen, hcnt, -⟩ := h.sameButBufAndCause
  cases hd : d.st with
  | waitFend =>
    exact ⟨_, _, armOfState_of_waitFend v hd, armOfState_of_waitFend v (hst ▸ hd), h⟩
  | waitAddrOrCmd =>
    refine ⟨_, _, armOfState_of_waitAddrOrCmd v hd, armOfState_of_waitAddrOrCmd v (hst ▸ hd), ?_⟩
    split_ifs
    · exact h.after_armAddr _
    · exact h.after_armCmd v
  | waitCmd =>
    refine ⟨_, _, armOfState_of_waitCmd v hd, armOfState_of_waitCmd v (hst ▸ hd), ?_⟩
    split_ifs
    · exact h.after_abandon _
    · exact h.after_armCmd v
  | waitNbt =>
    refine ⟨_, _, armOfState_of_waitNbt v hd, armOfState_of_waitNbt v (hst ▸ hd), ?_⟩
    split_ifs with hv
    · exact h.after_armLen hpending hv
    · exact h.after_abandon _
  | waitData =>
    rw [armOfState_of_waitData v hd, armOfState_of_waitData v (hst ▸ hd), ← hcnt, ← hlen, ← hcrc]
    split_ifs with hlt
    · exact h.after_armData hpending v hlt
    · exact ⟨_, _, rfl, rfl, h.after_endFrame _ _ hlt⟩
    · exact ⟨_, _, rfl, rfl, h.after_endFrame _ _ hlt⟩

end

/-! ### FEED keeps two decoders in the same frame -/

section
variable {d e : Decoder} (h : SameFrame d e)
include h

theorem SameFrame.after_armOfUnstuffed (hpending : d.status = .pending) (u : Unstuffed) :
    ∃ d' e', armOfUnstuffed u d = .ok d' ∧ armOfUnstuffed u e = .ok e' ∧ SameFrame d' e' := by
  cases u with
  | skip => exact ⟨_, _, rfl, rfl, h⟩
  | escErr => exact ⟨_, _, rfl, rfl, h.after_abandon _⟩
  | data v => exact h.after_armOfState hpending v

theorem SameFrame.after_feedByte (b : Byte) :
    ∃ d' e', feedByte b d = .ok d' ∧ feedByte b e = .ok e' ∧ SameFrame d' e' := by
  obtain ⟨hst, -, hesc, -⟩ := h.sameButBufAndCause
  by_cases hb : b = Config.fend
  · subst hb
    exact ⟨_, _, rfl, rfl, h.after_armFend⟩
  by_cases hd : d.st = .waitFend
  · exact ⟨_, _, feedByte_of_waitFend hb hd, feedByte_of_waitFend hb (hst ▸ hd),
      h.after_beginFeed _⟩
  · rw [feedByte_in_frame hb hd, feedByte_in_frame hb (hst ▸ hd), ← hesc]
    exact (h.after_beginFeed _).after_armOfUnstuffed rfl _

end

/-- Two states whose decoders are in the same frame and which present the same outputs. -/
def SameView (s₁ s₂ : State) : Prop := SameFrame s₁.dec s₂.dec ∧ s₁.out = s₂.out

/-- From decoders in the same frame, both runs complete and present the same outputs. -/
theorem exec_feed_sameView (b : Byte) {s₁ s₂ : State} (h : SameFrame s₁.dec s₂.dec) :
    ∃ t₁ t₂, exec (.feed b) s₁ = .next t₁ ∧ exec (.feed b) s₂ = .next t₂ ∧ SameView t₁ t₂ := by
  obtain ⟨d, e, hd, he, hsame⟩ := h.after_feedByte b
  obtain ⟨-, -, -, -, -, -, hlen, -, hstatus⟩ := hsame.sameButBufAndCause
  refine ⟨_, _, (congrArg (finishFeed · s₁) hd).trans (finishFeed_completes hsame.len_le_max s₁),
    (congrArg (finishFeed · s₂) he).trans (finishFeed_completes (hlen ▸ hsame.len_le_max) s₂),
    hsame, ?_⟩
  change Output.feed _ _ _ = Output.feed _ _ _
  rw [← hsame.cause_eq, ← hstatus]
  split_ifs with hevent
  · rfl
  · rw [hsame.eventOf_eq hevent]

theorem runFeeds_sameView {s₁ s₂ : State} (h : SameView s₁ s₂) (bs : List Byte) :
    ∃ t₁ t₂, runFeeds bs s₁ = .next t₁ ∧ runFeeds bs s₂ = .next t₂ ∧ SameView t₁ t₂ := by
  induction bs generalizing s₁ s₂ with
  | nil => exact ⟨s₁, s₂, rfl, rfl, h⟩
  | cons b bs ih =>
    obtain ⟨hframe, -⟩ := h
    obtain ⟨u₁, u₂, hu₁, hu₂, hview⟩ := exec_feed_sameView b hframe
    rw [runFeeds_cons hu₁, runFeeds_cons hu₂]
    exact ih hview

/-- Settles O42: `FEND` puts both decoders in the same frame but for `cause`, which no later FEED
reads. -/
theorem fendResynchronises : Obligations.FendResynchronises := by
  intro bs s₁ s₂
  rw [runFeeds_cons (exec_feed_fend s₁), runFeeds_cons (exec_feed_fend s₂)]
  have hframe := sameFrame_armFend s₁.dec s₂.dec
  cases bs with
  | nil => exact ⟨_, _, rfl, rfl, hframe.sameButBufAndCause, absurd rfl⟩
  | cons b bs =>
    obtain ⟨u₁, u₂, hu₁, hu₂, hview⟩ := exec_feed_sameView b
      (s₁ := { s₁ with dec := { armFend s₁.dec with cause := fendCause s₂.dec.st } })
      (s₂ := { s₂ with
        dec := armFend s₂.dec, out := .feed .pending (fendCause s₂.dec.st) none }) hframe
    rw [runFeeds_cons ((exec_feed_of_cause b _ _ _).symm.trans hu₁), runFeeds_cons hu₂]
    obtain ⟨t₁, t₂, ht₁, ht₂, hsame, hout⟩ := runFeeds_sameView hview bs
    exact ⟨t₁, t₂, ht₁, ht₂, hsame.sameButBufAndCause, fun _ => ⟨hsame.cause_eq, hout⟩⟩

end Sys2Proof.Machine

namespace Sys2Proof.Machine

/-! ### Runs of FEEDs, cut and joined (R74) -/

section
variable {s t : State}

theorem runFeeds_append {bs : List Byte} (h : runFeeds bs s = .next t) (cs : List Byte) :
    runFeeds (bs ++ cs) s = runFeeds cs t := by
  induction bs generalizing s with
  | nil =>
    obtain rfl := Host.Outcome.next.inj h
    rfl
  | cons b bs ih =>
    rw [List.cons_append, runFeeds]
    rw [runFeeds] at h
    cases hfeed : exec (.feed b) s with
    | next u =>
      rw [hfeed] at h
      exact ih h
    | fault f => simp [hfeed] at h
    | refused r => simp [hfeed] at h

/-- A run cut before its last byte has given PENDING throughout, so another run can follow. -/
theorem FeedsPendingThen.take_append {P Q : State → Prop} {bs cs : List Byte} {k : Nat}
    (hbs : FeedsPendingThen bs s P) (hk : k < bs.length)
    (hcs : ∀ u, FeedsPendingThen cs u Q) : FeedsPendingThen (bs.take k ++ cs) s Q := by
  obtain ⟨hpending, -⟩ := hbs
  have hlen : (bs.take k).length = k := List.length_take_of_le hk.le
  obtain ⟨u, hu⟩ : ∃ u, runFeeds (bs.take k) s = .next u := by
    obtain rfl | hpos := Nat.eq_zero_or_pos k
    · exact ⟨s, rfl⟩
    · obtain ⟨u, hu, -⟩ := hpending k hpos hk
      exact ⟨u, hu⟩
  obtain ⟨hrest, t, ht, hQ⟩ := hcs u
  refine ⟨fun m hm hlt => ?_, t, (runFeeds_append hu cs).trans ht, hQ⟩
  rw [List.length_append, hlen] at hlt
  by_cases hmk : m ≤ k
  · rw [List.take_append_of_le_length (hmk.trans_eq hlen.symm), List.take_take, min_eq_left hmk]
    exact hpending m hm (hmk.trans_lt hk)
  · have hcut : (bs.take k ++ cs).take m = bs.take k ++ cs.take (m - k) := by
      rw [List.take_append, hlen, List.take_of_length_le (by omega)]
    rw [hcut, runFeeds_append hu]
    exact hrest (m - k) (by omega) (by omega)

end

/-- Settles O43: the cut frame is part of a frame that round-trips, and so is the one after it. -/
theorem truncatedFrameThenValidFrame : Obligations.TruncatedFrameThenValidFrame := by
  intro c₁ c₂ p₁ p₂ k s hc₁ hc₂ hp₁ hp₂ hk
  refine (encodedFrameRoundTrips c₁ p₁ s hc₁ hp₁).take_append hk fun u => ?_
  obtain ⟨hpending, t, ht, -, -, hout⟩ := encodedFrameRoundTrips c₂ p₂ u hc₂ hp₂
  exact ⟨hpending, t, ht, hout⟩

/-! ### A frame whose CRC byte does not match (R142) -/

/-- The frame of command `c` and payload `p` with the CRC byte `x`. -/
def frameWithCrc (c : Byte) (p : List Byte) (x : Byte) : List Byte :=
  Config.fend :: stuffSeq (c :: lenByte p :: (p ++ [x]))

theorem frameOf_eq_frameWithCrc (c : Byte) (p : List Byte) :
    frameOf c p = frameWithCrc c p (crcTx c p) := by
  simp only [frameOf_eq_cons, frameWithCrc, stuffSeq_cons, stuffSeq_append, stuffSeq_nil,
    List.append_nil]

theorem InPayload.armOfState_crcBad {c x : Byte} {n : Nat} {q : List Byte} {d : Decoder}
    (h : InPayload c n q d) (hq : q.length = n) (hn : n ≤ 128) (hx : x ≠ d.crc) :
    armOfState x (beginFeed false d) = .ok (armCrcBad (beginFeed false d)) := by
  have hfull : ¬ d.cnt < d.len := fun hlt => ((h.cnt_lt_len_iff hq.le hn).1 hlt).ne hq
  exact (armOfState_of_waitData (d := beginFeed false d) x h.st_eq).trans
    ((if_neg hfull).trans (congrArg _ (if_neg hx)))

theorem InPayload.feedsPendingThen_crcBad {c x : Byte} {p : List Byte} {s : State}
    (h : InPayload c p.length p s.dec) (hp : p.length ≤ 128) (hx : x ≠ crcTx c p) :
    FeedsPendingThen (stuff x) s fun t => t.dec.status = .invalid := by
  have hlen : (beginFeed false s.dec).len ≤ 128#8 := BitVec.le_def.2 ((h.toNat_len hp).trans_le hp)
  have hcrc : s.dec.crc = crcTx c p := h.crc_eq
  have harm := (congrArg (finishFeed · s) (h.armOfState_crcBad rfl hp (hcrc ▸ hx))).trans
    (finishFeed_endFrame (d := beginFeed false s.dec) .crcMismatch s (by decide) hlen)
  rw [← List.append_nil (stuff x)]
  exact .stuff_append (by simp [h.st_eq]) h.prevFesc_eq harm (absurd rfl) (.nil rfl)

theorem feedsPendingThen_frameWithCrc {c x : Byte} {p : List Byte} (hc : bit7 c = false)
    (hp : p.length ≤ 128) (hx : x ≠ crcTx c p) (s : State) :
    FeedsPendingThen (frameWithCrc c p x) s fun t => t.dec.status = .invalid := by
  simp only [frameWithCrc, stuffSeq_cons, stuffSeq_append, stuffSeq_nil, List.append_nil]
  exact .header_append hc hp fun _ hheader =>
    .payload_append hheader rfl hp fun _ hpayload => hpayload.feedsPendingThen_crcBad hp hx

/-! ### One changed byte in a stuffed sequence (R150) -/

theorem stuff_of_plain {b : Byte} (hb : plainByte b) : stuff b = [b] := by
  obtain ⟨hfend, hfesc, -, -⟩ := hb
  exact stuff_of_ne hfend hfesc

/-- The bytes of an escape all have a part in stuffing. -/
theorem eq_of_stuff_getElem?_of_plain {v b : Byte} {i : Nat} (hb : plainByte b)
    (h : (stuff v)[i]? = some b) : v = b ∧ i = 0 := by
  have hmem := List.mem_of_getElem? h
  obtain ⟨-, hfesc, htfend, htfesc⟩ := hb
  obtain rfl | rfl | ⟨-, -, hv⟩ := stuff_cases v
  · simp [hfesc, htfend] at hmem
  · simp [hfesc, htfesc] at hmem
  · rw [hv, List.getElem?_singleton] at h
    split_ifs at h with hi
    exact ⟨Option.some.inj h, hi⟩

/-- A byte of a stuffed sequence with no part in stuffing is a byte of the sequence itself. -/
theorem stuffSeq_split_of_plain {m : List Byte} {i : Nat} {b : Byte} (hb : plainByte b)
    (h : (stuffSeq m)[i]? = some b) :
    ∃ m₁ m₂, m = m₁ ++ b :: m₂ ∧ i = (stuffSeq m₁).length := by
  induction m generalizing i with
  | nil => simp at h
  | cons v m ih =>
    rw [stuffSeq_cons] at h
    by_cases hi : i < (stuff v).length
    · rw [List.getElem?_append_left hi] at h
      obtain ⟨rfl, rfl⟩ := eq_of_stuff_getElem?_of_plain hb h
      exact ⟨[], m, rfl, rfl⟩
    · rw [List.getElem?_append_right (Nat.not_lt.1 hi)] at h
      obtain ⟨m₁, m₂, rfl, hlen⟩ := ih h
      refine ⟨v :: m₁, m₂, rfl, ?_⟩
      rw [stuffSeq_cons, List.length_append]
      omega

/-- Changing that byte into another such byte changes it in the sequence. -/
theorem stuffSeq_modify_of_plain {m₁ m₂ : List Byte} {b : Byte} (f : Byte → Byte)
    (hb : plainByte b) (hfb : plainByte (f b)) :
    (stuffSeq (m₁ ++ b :: m₂)).modify (stuffSeq m₁).length f = stuffSeq (m₁ ++ f b :: m₂) := by
  simp only [stuffSeq_append, stuffSeq_cons, stuff_of_plain hb, stuff_of_plain hfb]
  rw [List.modify_eq_take_cons_drop (by simp)]
  simp

/-! ### One changed byte in a frame (R105, R150) -/

/-- Changing the command, a payload byte or the CRC byte of a frame gives a frame whose CRC byte
does not match. -/
theorem changed_frame_eq_frameWithCrc {c b b' : Byte} {p m₁ m₂ : List Byte} (hne : b ≠ b')
    (hm : c :: lenByte p :: (p ++ [crcTx c p]) = m₁ ++ b :: m₂) (hlength : m₁.length ≠ 1) :
    ∃ c' p' x, Config.fend :: stuffSeq (m₁ ++ b' :: m₂) = frameWithCrc c' p' x ∧
      (c' = c ∨ m₁ = [] ∧ c' = b') ∧ p'.length = p.length ∧ x ≠ crcTx c' p' := by
  match m₁ with
  | [] =>
    obtain ⟨rfl, rfl⟩ := List.cons.inj hm
    exact ⟨b', p, crcTx c p, rfl, .inr ⟨rfl, rfl⟩, rfl,
      crcDetectsOneChangedByte _ c b' [Config.fend] (lenByte p :: p) hne⟩
  | [_] => exact absurd rfl hlength
  | _ :: _ :: q =>
    simp only [List.cons_append, List.cons.injEq] at hm
    obtain ⟨rfl, rfl, hm⟩ := hm
    obtain rfl | ⟨r, z, rfl⟩ := List.eq_nil_or_concat m₂
    · obtain ⟨rfl, hb⟩ := List.append_inj' hm rfl
      obtain rfl := List.singleton_inj.1 hb
      exact ⟨c, p, b', rfl, .inl rfl, rfl, hne.symm⟩
    · have hm' : p ++ [crcTx c p] = (q ++ b :: r) ++ [z] := by simpa using hm
      obtain ⟨hp, hz⟩ := List.append_inj' hm' rfl
      obtain rfl := List.singleton_inj.1 hz
      have hlen : (q ++ b' :: r).length = p.length := by simp [hp]
      have hlenByte : lenByte (q ++ b' :: r) = lenByte p := congrArg (BitVec.ofNat 8) hlen
      refine ⟨c, q ++ b' :: r, crcTx c p, ?_, .inl rfl, hlen, ?_⟩
      · simp [frameWithCrc, hlenByte]
      · rw [crcTx, crcTx, hlenByte, ← List.append_assoc, hp, ← List.append_assoc]
        exact crcDetectsOneChangedByte _ b b' _ r hne

theorem bit7_xor_twoPow (b : Byte) {k : Nat} (hk : k ≠ 7) :
    bit7 (b ^^^ BitVec.twoPow 8 k) = bit7 b := by
  simp [bit7, hk.symm]

theorem xor_twoPow_ne (b : Byte) {k : Nat} (hk : k < 8) : b ≠ b ^^^ BitVec.twoPow 8 k := by
  intro h
  have hbit := congrArg (BitVec.getLsbD · k) h
  simp [hk] at hbit

theorem stuff_of_bit7 {c : Byte} (hc : bit7 c = false) : stuff c = [c] :=
  stuff_of_ne (by rintro rfl; simp [bit7] at hc) (by rintro rfl; simp [bit7] at hc)

/-- Settles O44: the flip changes one byte of the frame before stuffing, but not the length. -/
theorem singleBitFlipGivesInvalid : Obligations.SingleBitFlipGivesInvalid := by
  intro c p s j k b b' hc hp hj hj2 hk hk7 hb hb' hplain hplain'
  obtain ⟨i, rfl⟩ := Nat.exists_eq_add_of_le' hj
  rw [frameOf_eq_frameWithCrc] at hb hb' ⊢
  obtain rfl : b ^^^ BitVec.twoPow 8 k = b' := by
    rw [flipBit, List.getElem?_modify_eq, hb] at hb'
    exact Option.some.inj hb'
  rw [frameWithCrc, List.getElem?_cons_succ] at hb
  obtain ⟨m₁, m₂, hm, rfl⟩ := stuffSeq_split_of_plain hplain hb
  have hlength : m₁.length ≠ 1 := by
    intro h
    obtain ⟨v, rfl⟩ := List.length_eq_one_iff.1 h
    obtain ⟨rfl, -⟩ := List.cons.inj hm
    simp [stuff_of_bit7 hc] at hj2
  obtain ⟨c', p', x, hframe, hc', hp', hx⟩ :=
    changed_frame_eq_frameWithCrc (xor_twoPow_ne b hk) hm hlength
  rw [frameWithCrc, flipBit, List.modify_succ_cons, hm,
    stuffSeq_modify_of_plain _ hplain hplain', hframe]
  refine feedsPendingThen_frameWithCrc ?_ (hp'.trans_le hp) hx s
  obtain rfl | ⟨rfl, rfl⟩ := hc'
  · exact hc
  · obtain ⟨rfl, -⟩ := List.cons.inj hm
    rw [bit7_xor_twoPow c (hk7 rfl), hc]

end Sys2Proof.Machine

namespace Sys2Proof.Machine

/-! ### The default conversion is the nearest value (R167) -/

/-- The quotient of a multiple of 8 by 1000 is never a half-integer, so no tie arises. -/
theorem divNearestEven_error_lt {a : Nat} (h8 : 8 ∣ a) :
    |(divNearestEven a 1000 : ℚ) - a / (1000 : Nat)| < 1 / 2 := by
  refine lt_of_le_of_ne (divNearestEven_error a (by decide)) fun heq => ?_
  obtain h | h := eq_or_eq_neg_of_abs_eq heq
  · have htie : (1000 * divNearestEven a 1000 : ℚ) = a + 500 := by push_cast at h; linarith
    have htie' : 1000 * divNearestEven a 1000 = a + 500 := by exact_mod_cast htie
    omega
  · have htie : (1000 * divNearestEven a 1000 + 500 : ℚ) = a := by push_cast at h; linarith
    have htie' : 1000 * divNearestEven a 1000 + 500 = a := by exact_mod_cast htie
    omega

/-- In units of `2^-k`, `z` is an integer or smaller than any 53-bit normalised significand. -/
def OnGridOrBelow (k : Nat) (z : ℚ) : Prop := (∃ j : ℤ, z * 2 ^ k = j) ∨ |z * 2 ^ k| < 2 ^ 52

theorem OnGridOrBelow.signFactor_mul {k : Nat} {z : ℚ} (h : OnGridOrBelow k z) (neg : Bool) :
    OnGridOrBelow k (signFactor neg * z) := by
  obtain ⟨j, hj⟩ | hlt := h
  · refine .inl ⟨if neg then -j else j, ?_⟩
    rw [mul_assoc, hj]
    cases neg <;> simp [signFactor]
  · exact .inr (by rwa [mul_assoc, abs_signFactor_mul])

theorem scaledValue_eq (neg : Bool) (m e bias : Nat) :
    scaledValue neg m e bias = signFactor neg * (m * 2 ^ e / 2 ^ bias) := by
  obtain h | h := lt_or_ge e bias
  · rw [scaledValue_of_lt neg m h, ← pow_sub_mul_pow (2 : ℚ) h.le]
    field_simp
  · have hdiv : (2 : ℚ) ^ e / 2 ^ bias = 2 ^ (e - bias) := by
      rw [← pow_sub_mul_pow (2 : ℚ) h]
      field_simp
    rw [mul_div_assoc, hdiv]
    cases neg <;> simp [scaledValue, signFactor, h]

/-- A significand of 53 bits is on the grid, or its unit is finer and it lies below. -/
theorem scaledValue_onGridOrBelow (neg : Bool) {m : Nat} (e bias k : Nat) (hm : m < 2 ^ 53) :
    OnGridOrBelow k (scaledValue neg m e bias) := by
  rw [scaledValue_eq]
  refine OnGridOrBelow.signFactor_mul ?_ neg
  obtain h | h := le_or_gt bias (e + k)
  · refine .inl ⟨(m * 2 ^ (e + k - bias) : Nat), ?_⟩
    have hsplit : (2 : ℚ) ^ e * 2 ^ k = 2 ^ (e + k - bias) * 2 ^ bias := by
      rw [pow_sub_mul_pow (2 : ℚ) h, pow_add]
    push_cast
    rw [div_mul_eq_mul_div, mul_assoc, hsplit]
    field_simp
  · refine .inr ?_
    have hsplit : (2 : ℚ) ^ bias = 2 ^ (bias - (e + k) - 1) * 2 * (2 ^ e * 2 ^ k) := by
      rw [← pow_succ, ← pow_add, ← pow_add]
      congr 1
      omega
    have hone : (1 : ℚ) ≤ 2 ^ (bias - (e + k) - 1) := one_le_pow₀ (by norm_num)
    have hm' : (m : ℚ) < 2 ^ 53 := by exact_mod_cast hm
    have hscaled : (m : ℚ) * 2 ^ e / 2 ^ bias * 2 ^ k = m / (2 ^ (bias - (e + k) - 1) * 2) := by
      rw [hsplit]
      field_simp
    rw [hscaled, abs_of_nonneg (by positivity), div_lt_iff₀ (by positivity)]
    linarith

theorem f64Value_onGridOrBelow (y : F64) (k : Nat) : OnGridOrBelow k (f64Value y) := by
  have hfrac : f64Frac y < 2 ^ 52 := BitVec.isLt _
  unfold f64Value
  split <;> exact scaledValue_onGridOrBelow _ _ _ _ (by omega)

/-- An integer less than half a unit away is nearer than every other integer. -/
theorem abs_sub_lt_of_int_ne {q j : ℤ} {a : ℚ} (hq : |(q : ℚ) - a| < 1 / 2) (hj : j ≠ q) :
    |(q : ℚ) - a| < |(j : ℚ) - a| := by
  have hone : (1 : ℚ) ≤ |(j : ℚ) - q| := by
    exact_mod_cast Int.one_le_abs (sub_ne_zero.2 hj)
  linarith [abs_sub_le (j : ℚ) a q, abs_sub_comm a (q : ℚ)]

/-- From `2^52` units on, the nearest integer is the nearest of all values on the grid or below. -/
theorem OnGridOrBelow.abs_sub_lt {k : Nat} {z a : ℚ} {q : ℤ} (hz : OnGridOrBelow k z)
    (ha : 2 ^ 52 ≤ a * 2 ^ k) (hq : |(q : ℚ) - a * 2 ^ k| < 1 / 2) (hne : z ≠ q / 2 ^ k) :
    |(q : ℚ) / 2 ^ k - a| < |z - a| := by
  have hpos : (0 : ℚ) < 2 ^ k := by positivity
  have hscale (w : ℚ) : |w - a| * 2 ^ k = |w * 2 ^ k - a * 2 ^ k| := by
    rw [← sub_mul, abs_mul, abs_of_pos hpos]
  rw [← mul_lt_mul_iff_left₀ hpos, hscale, hscale, div_mul_cancel₀ _ hpos.ne']
  obtain ⟨j, hj⟩ | hlt := hz
  · rw [hj]
    refine abs_sub_lt_of_int_ne hq ?_
    rintro rfl
    exact hne (eq_div_of_mul_eq hpos.ne' hj)
  · have hedge : |(q : ℚ) - a * 2 ^ k| ≤ |((2 ^ 52 : ℤ) : ℚ) - a * 2 ^ k| := by
      by_cases h : (2 ^ 52 : ℤ) = q
      · rw [h]
      · exact (abs_sub_lt_of_int_ne hq h).le
    rw [Int.cast_pow, Int.cast_ofNat, abs_of_nonpos (sub_nonpos.2 ha)] at hedge
    have hbelow := (abs_lt.1 hlt).2
    rw [abs_sub_comm (z * 2 ^ k), abs_of_pos (by linarith : 0 < a * 2 ^ k - z * 2 ^ k)]
    linarith

/-- `ampsRounded n` is nearer to `n / 1000` than every other value of a binary64. -/
theorem ampsRounded_nearest {n : Nat} (h0 : 0 < n) (hn : n ≤ 32768) {z : ℚ}
    (hz : OnGridOrBelow (62 - ampsExponent n) z) (hne : z ≠ ampsRounded n) :
    |ampsRounded n - n / 1000| < |z - n / 1000| := by
  have he := ampsExponent_le hn
  have hnorm : (2 : ℚ) ^ 52 ≤ n / 1000 * 2 ^ (62 - ampsExponent n) := by
    have hlo : (1000 * 2 ^ ampsExponent n : ℚ) ≤ n * 1024 := by
      exact_mod_cast (ampsExponent_bounds h0).1
    have hsplit : (2 : ℚ) ^ 62 = 2 ^ (62 - ampsExponent n) * 2 ^ ampsExponent n :=
      (pow_sub_mul_pow 2 (by omega)).symm
    have hmul := mul_le_mul_of_nonneg_left hlo
      (by positivity : (0 : ℚ) ≤ 2 ^ (62 - ampsExponent n))
    linarith
  have hclose : |((ampsSignificand n : ℤ) : ℚ) - n / 1000 * 2 ^ (62 - ampsExponent n)| < 1 / 2 := by
    have hlt := divNearestEven_error_lt (a := n * 2 ^ (62 - ampsExponent n))
      (Dvd.dvd.mul_left (pow_dvd_pow 2 (by omega : 3 ≤ 62 - ampsExponent n)) n)
    rw [ampsSignificand]
    push_cast at hlt ⊢
    rwa [div_mul_eq_mul_div]
  have hround : ampsRounded n = ((ampsSignificand n : ℤ) : ℚ) / 2 ^ (62 - ampsExponent n) := by
    rw [ampsRounded, Int.cast_natCast]
  rw [hround] at hne ⊢
  exact hz.abs_sub_lt hnorm hclose hne

/-- Settles O54: with its sign taken off, every binary64 value is on the grid of the rounded
magnitude or below it. -/
theorem toAmpsDefaultIsNearest : Obligations.ToAmpsDefaultIsNearest := by
  intro m s hcfg
  refine ⟨ampsNearestEven m, by rw [exec_toAmps_eq, hcfg, toAmps], f64Exp_ampsNearestEven_ne m,
    fun y _ hne => ?_⟩
  change |_ - (sext16 m : ℚ) / 1000| < |_ - (sext16 m : ℚ) / 1000|
  by_cases h0 : m = 0#16
  · subst h0
    rw [ampsNearestEven_zero, f64Value_zero] at hne ⊢
    simpa [sext16] using hne
  · have hsq (w : ℚ) : signFactor m.msb * (signFactor m.msb * w) = w := by
      cases m.msb <;> simp [signFactor]
    rw [f64Value_ampsNearestEven h0] at hne ⊢
    rw [sext16_eq_sign_mul, mul_div_assoc, ← mul_sub, abs_signFactor_mul,
      ← hsq (f64Value y), ← mul_sub, abs_signFactor_mul]
    refine ampsRounded_nearest (natAbs_sext16_pos h0) (natAbs_sext16_le m)
      ((f64Value_onGridOrBelow y _).signFactor_mul _) fun heq => hne ?_
    rw [← heq, hsq]

end Sys2Proof.Machine

namespace Sys2Proof.Machine

/-! ### TELEM and TelemDecode (R160 to R166, R170) -/

theorem exec_telemDecode_eq (p : List Byte) (s : State) :
    exec (.telemDecode p) s = .next { s with out := telemResult s p } := rfl

theorem exec_telem_of_not_complete (data : Byte) {s : State} (h : s.dec.status ≠ .complete) :
    exec (.telem data) s = .next { s with out := .error .telemNoFrame none } := by
  simp [exec, execTelem, answer, h]

/-- A COMPLETE frame's payload is decoded as TelemDecode decodes it, whatever the command. -/
theorem exec_telem_of_complete (data : Byte) {s : State} (h : s.dec.status = .complete)
    (hlen : s.dec.len ≤ 128#8) :
    exec (.telem data) s = exec (.telemDecode (payload s.dec)) s := by
  change execTelem data s = execTelemDecode (payload s.dec) s
  rw [execTelem, if_pos h, withPayload_of_le _ hlen, execTelemDecode]

/-- Settles O50, by whether a frame is COMPLETE. -/
theorem telemDecodesCompletedPayload : Obligations.TelemDecodesCompletedPayload := by
  intro data s
  refine ⟨fun p => ?_, exec_telem_of_not_complete data, fun h hlen => ?_⟩
  · have hword := decodeWord_of_telem p (wordOp_opWordOf 0b101#3 data)
    rwa [wordData_opWordOf] at hword
  · have heq := exec_telem_of_complete data h hlen
    exact ⟨heq, _, heq.trans (exec_telemDecode_eq _ s)⟩

/-! ### Little-endian fields (R44) -/

/-- A field's first byte is its least significant. Past the end of `p` both sides read 0. -/
theorem leValue_take_succ (p : List Byte) (off n : Nat) :
    leValue ((p.drop off).take (n + 1)) =
      (p.getD off 0#8).toNat + 256 * leValue ((p.drop (off + 1)).take n) := by
  obtain h | h := lt_or_ge off p.length
  · rw [List.drop_eq_getElem_cons h, List.take_succ_cons, leValue, List.getD_eq_getElem _ _ h]
  · rw [List.getD_eq_default _ _ h, List.drop_eq_nil_of_le h, List.drop_eq_nil_of_le (by omega)]
    simp [leValue]

theorem toNat_append_byte {w : Nat} (x : BitVec w) (b : Byte) :
    (x ++ b).toNat = b.toNat + 256 * x.toNat := by
  rw [BitVec.toNat_append, ← Nat.shiftLeft_add_eq_or_of_lt b.isLt, Nat.shiftLeft_eq]
  omega

theorem fieldLE_eq_of_leValue {p : List Byte} {off n : Nat} {x : BitVec (8 * n)}
    (h : leValue ((p.drop off).take n) = x.toNat) : fieldLE p off n = x := by
  rw [fieldLE, h, BitVec.ofNat_toNat, BitVec.setWidth_eq]

theorem fieldLE_two (p : List Byte) (off : Nat) :
    fieldLE p off 2 = p.getD (off + 1) 0#8 ++ p.getD off 0#8 :=
  fieldLE_eq_of_leValue (by simp only [leValue_take_succ, toNat_append_byte, List.take_zero,
    leValue, Nat.mul_zero, Nat.add_zero])

theorem fieldLE_four (p : List Byte) (off : Nat) :
    fieldLE p off 4 = p.getD (off + 3) 0#8 ++ p.getD (off + 2) 0#8 ++ p.getD (off + 1) 0#8 ++
      p.getD off 0#8 :=
  fieldLE_eq_of_leValue (by simp only [leValue_take_succ, toNat_append_byte, List.take_zero,
    leValue, Nat.mul_zero, Nat.add_zero])

/-! ### The result of TelemDecode -/

theorem telemResult_of_length {s : State} {p : List Byte}
    (h : p.length = s.cfg.layout.payloadLen) :
    telemResult s p = .sample (sampleOf s.cfg.layout p)
      (telemetryEvent s.cfg.rounding s.draws (sampleOf s.cfg.layout p)) := by
  simp [telemResult, telemDecode, h]

theorem telemResult_of_bad_length {s : State} {p : List Byte}
    (h : p.length ≠ s.cfg.layout.payloadLen) :
    telemResult s p = .error .telemBadLen (some p.length) := by
  simp [telemResult, telemDecode, h]

/-- A sample is never presented without its own event. -/
theorem telemResult_eq_sample {s : State} {p : List Byte} {smp : Sample} {ev : TelemetryEvent}
    (h : telemResult s p = .sample smp ev) :
    ev = telemetryEvent s.cfg.rounding s.draws smp := by
  unfold telemResult at h
  split at h
  · obtain ⟨rfl, rfl⟩ := Output.sample.inj h
    rfl
  · cases h

theorem milliamps_sampleOf (l : TelemLayout) (p : List Byte) (k : Fin 40) :
    milliamps (sampleOf l p) k =
      (p.getD (3 + 2 * k) 0#8 ++ p.getD (2 + 2 * k) 0#8 : BitVec 16).toInt := by
  have hfield : (sampleOf l p).currentMA[k] = currentField p k := by
    simp [sampleOf, currentFields]
  rw [milliamps, hfield, currentField, fieldLE_two, sext16,
    show 2 + 2 * (k : Nat) + 1 = 3 + 2 * k by omega]

theorem sampleOf_trailer (l : TelemLayout) (p : List Byte) :
    (sampleOf l p).trailer = if l = .len94 then some (fieldLE p 90 4) else none := by
  cases l <;> rfl

/-- Settles O51, by the length: each field of the sample is a little-endian field of `p`. -/
theorem telemDecodeByLength : Obligations.TelemDecodeByLength := by
  intro p s
  refine ⟨fun h => ?_, fun h => ⟨sampleOf s.cfg.layout p,
    telemetryEvent s.cfg.rounding s.draws (sampleOf s.cfg.layout p), ?_, fieldLE_two p 0,
    milliamps_sampleOf _ p, fieldLE_four p 82, fieldLE_four p 86, ?_⟩⟩
  · rw [exec_telemDecode_eq, telemResult_of_bad_length h]
  · rw [exec_telemDecode_eq, telemResult_of_length h]
  · rw [sampleOf_trailer, fieldLE_four]

theorem exec_tempF64_eq (t : F32) (s : State) :
    exec (.tempF64 t) s = .next { s with out := .f64 (tempF64 s.draws t) } := rfl

/-- Settles O52, as the event beside a sample is `telemetryEvent` of it. -/
theorem telemetryEventProjectsSample : Obligations.TelemetryEventProjectsSample := by
  intro p s t smp ev hexec hout
  obtain rfl := answer_next hexec
  obtain rfl := telemResult_eq_sample hout
  refine ⟨fun k hk => ?_, exec_tempF64_eq _ s, rfl⟩
  rw [exec_toAmps_eq, telemetryEvent, Vector.getElem_map]

/-! ### is_telemetry (R169) -/

theorem Decoder.isTelemetry_iff (d : Decoder) :
    d.isTelemetry = true ↔ d.status = .complete ∧ d.cmd = Config.telemCmd := by
  simp [Decoder.isTelemetry, Machine.isTelemetry]

theorem exec_isTelemetry_eq (s : State) :
    exec .isTelemetry s = .next { s with out := .bit s.dec.isTelemetry } := rfl

/-- Settles O56. -/
theorem isTelemetryClassifies : Obligations.IsTelemetryClassifies := fun s =>
  ⟨s.dec.isTelemetry, exec_isTelemetry_eq s, s.dec.isTelemetry_iff⟩

end Sys2Proof.Machine

namespace Sys2Proof.Machine

/-! ### Packed binary64 patterns by exponent and fraction -/

theorem f64Pack_eq_zero_exp (neg : Bool) (e f : Nat) :
    f64Pack neg e f = f64Pack neg 0 (e * 2 ^ 52 + f) := by
  simp only [f64Pack, Nat.zero_mul, Nat.add_zero, Nat.add_assoc]

section
variable (neg : Bool) {e f : Nat} (he : e < 2048) (hf : f < 2 ^ 52)
include he hf

theorem msb_f64Pack : (f64Pack neg e f).msb = neg := by
  rw [f64Pack_eq_zero_exp, msb_f64Pack_zero neg (by omega)]

theorem f64Exp_f64Pack : f64Exp (f64Pack neg e f) = e := by
  rw [f64Pack_eq_zero_exp, f64Exp_f64Pack_zero neg (by omega)]
  omega

theorem f64Frac_f64Pack : f64Frac (f64Pack neg e f) = f := by
  rw [f64Pack_eq_zero_exp, f64Frac_f64Pack_zero neg (by omega)]
  omega

theorem f64Value_f64Pack (h0 : e ≠ 0) :
    f64Value (f64Pack neg e f) = signFactor neg * ((2 ^ 52 + f : Nat) * 2 ^ e / 2 ^ 1075) := by
  rw [f64Value, f64Exp_f64Pack neg he hf, if_neg h0, f64Frac_f64Pack neg he hf,
    msb_f64Pack neg he hf, scaledValue_eq]

/-- A binary32 significand `m` of exponent `a`, shifted up by `j` to 53 bits: the biases 150 and
1075 differ by 925. -/
theorem f64Value_f64Pack_shifted {m a j : Nat} (h0 : e ≠ 0) (hm : 2 ^ 52 + f = m * 2 ^ j)
    (ha : j + e = a + 925) :
    f64Value (f64Pack neg e f) = signFactor neg * (m * 2 ^ a / 2 ^ 150) := by
  rw [f64Value_f64Pack neg he hf h0, hm, Nat.cast_mul, Nat.cast_pow, Nat.cast_ofNat, mul_assoc,
    ← pow_add, ha, show 1075 = 150 + 925 from rfl, pow_add 2 a, pow_add 2 150, ← mul_assoc,
    mul_div_mul_right _ _ (by positivity)]

end

/-! ### tempF64 (R168) -/

theorem f32Frac_lt (t : F32) : f32Frac t < 2 ^ 23 := BitVec.isLt _

theorem f32Exp_lt (t : F32) : f32Exp t < 2 ^ 8 := BitVec.isLt _

theorem f32IsNan_iff (t : F32) : f32IsNan t = true ↔ f32Exp t = 255 ∧ f32Frac t ≠ 0 := by
  simp [f32IsNan]

theorem f32IsInf_iff (t : F32) : f32IsInf t = true ↔ f32Exp t = 255 ∧ f32Frac t = 0 := by
  simp [f32IsInf]

theorem anyNan_isNan (n : Nat) (t : F32) : f64IsNan (anyNan n t) = true := by
  have hlt : ((Config.nanAny n t).extractLsb' 0 52).toNat < 2 ^ 52 := BitVec.isLt _
  have hfrac : ∀ g < 2 ^ 52, (if g = 0 then 1 else g) < 2 ^ 52 ∧ (if g = 0 then 1 else g) ≠ 0 := by
    intro g hg
    split <;> omega
  obtain ⟨hf, hne⟩ := hfrac _ hlt
  rw [f64IsNan, anyNan, f64Exp_f64Pack _ (by decide) hf, f64Frac_f64Pack _ (by decide) hf]
  simpa using hne

/-- `x` is the exact widening of the finite pattern `t`. -/
def WidensTo (t : F32) (x : F64) : Prop :=
  f64Exp x ≠ 2047 ∧ f64Value x = f32Value t ∧ x.msb = t.msb

section
variable {t : F32}

theorem widensTo_zero (he : f32Exp t = 0) (hf : f32Frac t = 0) :
    WidensTo t (f64Pack t.msb 0 0) := by
  have hexp := f64Exp_f64Pack t.msb (by decide : 0 < 2048) (by decide : 0 < 2 ^ 52)
  refine ⟨by rw [hexp]; decide, ?_, msb_f64Pack _ (by decide) (by decide)⟩
  rw [f64Value, if_pos hexp, f64Frac_f64Pack _ (by decide) (by decide), f32Value, if_pos he, hf,
    scaledValue_eq, scaledValue_eq]
  simp

/-- A subnormal is normalised by its leading bit: its value has no other 53-bit significand. -/
theorem widensTo_widenSubnormal (he : f32Exp t = 0) (hf : f32Frac t ≠ 0) :
    WidensTo t (widenSubnormal t.msb (f32Frac t)) := by
  have hk : Nat.log2 (f32Frac t) < 23 := (Nat.log2_lt hf).2 (f32Frac_lt t)
  have hlo : 2 ^ Nat.log2 (f32Frac t) ≤ f32Frac t := Nat.log2_self_le hf
  have hhi : f32Frac t < 2 ^ (Nat.log2 (f32Frac t) + 1) := Nat.lt_log2_self
  have hvalue : f32Value t = signFactor t.msb * (f32Frac t * 2 ^ 1 / 2 ^ 150) := by
    rw [f32Value, if_pos he, scaledValue_eq]
  rw [widenSubnormal]
  generalize Nat.log2 (f32Frac t) = k at hk hlo hhi ⊢
  generalize f32Frac t = f at hlo hhi hvalue ⊢
  have hone : 2 ^ k * 2 ^ (52 - k) = 2 ^ 52 := pow_mul_pow_sub 2 (by omega)
  have hnorm : 2 ^ 52 ≤ f * 2 ^ (52 - k) := hone ▸ Nat.mul_le_mul_right _ hlo
  have hnorm' : f * 2 ^ (52 - k) < 2 * 2 ^ 52 := by
    rw [← hone, ← mul_assoc, ← pow_succ']
    exact Nat.mul_lt_mul_of_pos_right hhi (by positivity)
  have hexp : 874 + k < 2048 := by omega
  have hfrac : f * 2 ^ (52 - k) - 2 ^ 52 < 2 ^ 52 := by omega
  refine ⟨?_, ?_, msb_f64Pack _ hexp hfrac⟩
  · rw [f64Exp_f64Pack _ hexp hfrac]
    omega
  · rw [hvalue]
    exact f64Value_f64Pack_shifted _ hexp hfrac (by omega) (Nat.add_sub_cancel' hnorm) (by omega)

/-- A normal pattern keeps its fraction; its exponent gets the larger bias, 1023 for 127. -/
theorem widensTo_normal (he : f32Exp t ≠ 0) :
    WidensTo t (f64Pack t.msb (f32Exp t + 896) (f32Frac t * 2 ^ 29)) := by
  have hlt := f32Exp_lt t
  have hf := f32Frac_lt t
  have hexp : f32Exp t + 896 < 2048 := by omega
  have hfrac : f32Frac t * 2 ^ 29 < 2 ^ 52 := by omega
  refine ⟨?_, ?_, msb_f64Pack _ hexp hfrac⟩
  · rw [f64Exp_f64Pack _ hexp hfrac]
    omega
  · rw [f32Value, if_neg he, scaledValue_eq]
    exact f64Value_f64Pack_shifted _ hexp hfrac (by omega) (j := 29) (by omega) (by omega)

theorem tempF64_of_finite (n : Nat) (he : f32Exp t ≠ 255) : WidensTo t (tempF64 n t) := by
  rw [tempF64, if_neg (by simp [f32IsNan_iff, he]), if_neg (by simp [f32IsInf_iff, he])]
  split_ifs with h0 hf
  · exact widensTo_zero h0 hf
  · exact widensTo_widenSubnormal h0 hf
  · exact widensTo_normal h0

theorem tempF64_of_inf (n : Nat) (h : f32IsInf t = true) : tempF64 n t = f64Pack t.msb 2047 0 := by
  obtain ⟨-, hf⟩ := (f32IsInf_iff t).1 h
  rw [tempF64, if_neg (by simp [f32IsNan_iff, hf]), if_pos h]

theorem tempF64_of_nan (n : Nat) (h : f32IsNan t = true) : tempF64 n t = anyNan n t := by
  rw [tempF64, if_pos h]

end

theorem f64IsInf_f64Pack (neg : Bool) : f64IsInf (f64Pack neg 2047 0) = true := by
  cases neg <;> decide

/-- Settles O55, by finite patterns, infinities and NaNs. -/
theorem tempWidensExactly : Obligations.TempWidensExactly := by
  intro t s
  refine ⟨tempF64 s.draws t, exec_tempF64_eq t s, tempF64_of_finite _, fun h => ?_, fun h => ?_⟩
  · rw [tempF64_of_inf _ h]
    exact ⟨f64IsInf_f64Pack _, msb_f64Pack _ (by decide) (by decide)⟩
  · rw [tempF64_of_nan _ h]
    exact anyNan_isNan _ t

end Sys2Proof.Machine

namespace Sys2Proof.Machine

/-! ### Hardware reset (R200) -/

/-- With reset asserted the operation beside it is not read. -/
theorem runInput_reset (op : Option HostOp) (s : State) :
    runInput { reset := true, op := op } s = .next (clearDecoder s) := rfl

/-- Settles O2: the input is taken, then its reset clears the decoder as CLEAR does. -/
theorem hardwareResetWins : Obligations.HardwareResetWins := by
  intro s op rest data hinbox
  have hstep : step s = .next (clearDecoder (takeInput rest s)) :=
    (step_of_input hinbox).trans (runInput_reset op _)
  exact ⟨hstep, hstep.trans (exec_clear_eq data _).symm⟩

end Sys2Proof.Machine
